-- ==== Sys2Proof/Word.lean ====
section
/-! DEFINITION. The value types of the block (spec 00_scope.md R8 and R11): bytes, 32-bit words and the modular
arithmetic of a counter whose width the configuration gives. -/

namespace Sys2Proof

/-- A byte, `u8` (R11). -/
abbrev Byte := BitVec 8

/-- A 32-bit value: a clock value, an operand register or `RES` (R11, R20). Its `+` and `-` wrap modulo `2^32`. -/
abbrev Word := BitVec 32

/-- `a +_bits b`, on a natural number below `2^bits` (R8). -/
def addMod (bits a b : Nat) : Nat := (a + b) % 2 ^ bits

/-- `a -_bits b`: the difference modulo `2^bits` (R8). -/
def subMod (bits a b : Nat) : Nat := (a + (2 ^ bits - b % 2 ^ bits)) % 2 ^ bits

end Sys2Proof
end

