-- ==== Sys2Proof/Config.lean ====
section
/-! DEFINITION. The configuration record of 00_scope.md R6, its well-formedness R7, and the two parameter sets the
spec names. A configuration is a constant of the machine: State carries it, no step writes it, and a statement about
every state is a statement about every configuration (log 1). -/

namespace Sys2Proof

/-- The five endpoints (41_endpoint.md R124). -/
inductive Endpoint where
  | cdcTx | cdcRx | kb | ms | js
  deriving DecidableEq, Repr

/-- The IN endpoints, device to host (10_state.md R34). -/
inductive InEp where
  | cdcTx | kb | ms | js
  deriving DecidableEq, Repr

/-- The endpoint an IN endpoint is. -/
def InEp.toEndpoint : InEp → Endpoint
  | .cdcTx => .cdcTx
  | .kb => .kb
  | .ms => .ms
  | .js => .js

/-- One number for each endpoint: `SIZE[e]` or `BANKS[e]` (R6). -/
structure PerEndpoint where
  cdcTx : Nat
  cdcRx : Nat
  kb : Nat
  ms : Nat
  js : Nat
  deriving DecidableEq, Repr

/-- The entry of an IN endpoint. -/
def PerEndpoint.at (p : PerEndpoint) : InEp → Nat
  | .cdcTx => p.cdcTx
  | .kb => p.kb
  | .ms => p.ms
  | .js => p.js

/-- `KB_REPORT`, `MS_REPORT` and `JS_REPORT` (R6). -/
def kbReportSize : Nat := 8
@[inherit_doc kbReportSize] def msReportSize : Nat := 5
@[inherit_doc kbReportSize] def jsReportSize : Nat := 12

/-- The configuration (R6). Every field marked OPEN there is a field here. -/
structure Config where
  /-- `F_CPU`; no rule depends on it. -/
  fCpu : Nat
  tickUs : Nat
  tcntBits : Nat
  millisInc : Nat
  fractInc : Nat
  fractMax : Nat
  fractBits : Nat
  frameBits : Nat
  txTimeout : Nat
  txFlush : Nat
  hidTimeout : Nat
  size : PerEndpoint
  banks : PerEndpoint
  addrBits : Nat
  bootloaderEntry : Nat
  readyRequiresDtr : Bool
  /-- `ATOMIC_BITS`; no rule depends on it (70_reset_and_hazards.md R270). -/
  atomicBits : Nat
  deriving DecidableEq, Repr

namespace Config

/-- `TCNT_MAX = 2^TCNT_BITS - 1` (R6). -/
def tcntMax (c : Config) : Nat := 2 ^ c.tcntBits - 1

/-- `US_PER_COUNT = TICK_US / 2^TCNT_BITS` (R6). -/
def usPerCount (c : Config) : Nat := c.tickUs / 2 ^ c.tcntBits

/-- Well-formedness (R7). -/
abbrev WF (c : Config) : Prop :=
  c.tickUs % 2 ^ c.tcntBits = 0 ∧
  c.fractInc < c.fractMax ∧
  c.fractMax + c.fractInc ≤ 2 ^ c.fractBits ∧
  (8 ≤ c.size.kb ∧ 5 ≤ c.size.ms ∧ 12 ≤ c.size.js) ∧
  (1 ≤ c.size.cdcTx ∧ 1 ≤ c.size.cdcRx) ∧
  (1 ≤ c.banks.cdcTx ∧ 1 ≤ c.banks.cdcRx ∧ 1 ≤ c.banks.kb ∧ 1 ≤ c.banks.ms ∧ 1 ≤ c.banks.js) ∧
  (1 ≤ c.txTimeout ∧ c.txTimeout < 2 ^ c.frameBits) ∧
  (1 ≤ c.hidTimeout ∧ c.hidTimeout < 2 ^ c.frameBits) ∧
  1 ≤ c.txFlush

/-- The exactness equation of R7, cleared of its fractions: the clock counts true time. -/
abbrev Exact (c : Config) : Prop :=
  (c.millisInc * c.fractMax + c.fractInc) * 1000 = c.tickUs * c.fractMax

/-- The suggested set of R6, `SUGG` of 95_test_vectors.md. PRESUMED: general knowledge, not the source's (log 1).
The bootloader entry is OPEN with no suggestion; 0 is this model's placeholder (log 1). -/
def suggested : Config where
  fCpu := 16000000
  tickUs := 1024
  tcntBits := 8
  millisInc := 1
  fractInc := 3
  fractMax := 125
  fractBits := 8
  frameBits := 11
  txTimeout := 25
  txFlush := 5
  hidTimeout := 50
  size := { cdcTx := 64, cdcRx := 64, kb := 8, ms := 8, js := 16 }
  banks := { cdcTx := 2, cdcRx := 2, kb := 1, ms := 1, js := 1 }
  addrBits := 16
  bootloaderEntry := 0
  readyRequiresDtr := false
  atomicBits := 8

/-- The set `SCENARIO_1MS` of 92_eei_decisions.md D42: one tick is one millisecond. -/
def scenario1ms : Config :=
  { suggested with
    tickUs := 1000, tcntBits := 3, millisInc := 1, fractInc := 0, fractMax := 1, fractBits := 8 }

end Config

end Sys2Proof
end

