-- ==== Sys2Proof/Syntax.lean ====
section
/-! DEFINITION. The commands of the block: the raw triple of 30_encoding.md R81 and, for each row of the opcode map
R83, one constructor with its operands already taken by R82. -/

namespace Sys2Proof

/-- A command as the stream holds it: the triple `(CMD, ARG0, ARG1)` (10_state.md R20, R21; 30_encoding.md R86). -/
structure Command where
  cmd : Byte
  arg0 : Word
  arg1 : Word
  deriving DecidableEq, Repr

/-- The 39 commands of the opcode map (R83), with their operands (R82). -/
inductive Instr where
  -- unit 0, clock
  | millis
  | micros
  | delay (ms : Word)
  | delayUs (us : Word)
  -- unit 1, CDC serial
  | serAvailable
  | serPeek
  | serRead
  | serFlush
  /-- `buf` is the whole `ARG0`; its low `ADDR_BITS` bits are the address (R82). -/
  | serWrite (buf : Word) (size : Word)
  | serSendNow
  | serBaud
  | serStopbits
  | serParitytype
  | serNumbits
  | serDtr
  | serRts
  | serReady
  | serGetWriteError
  -- unit 2, keyboard
  | kbSetModifier (v : Byte)
  | kbSetKey1 (v : Byte)
  | kbSetKey2 (v : Byte)
  | kbSetKey3 (v : Byte)
  | kbSetKey4 (v : Byte)
  | kbSetKey5 (v : Byte)
  | kbSetKey6 (v : Byte)
  | kbSendNow
  | kbReleaseAll
  | kbType (mod : Byte) (key : Byte)
  -- unit 3, mouse
  /-- The four deltas as their i8 bytes, two's complement. -/
  | msMove (x y wheel horiz : Byte)
  | msPress (b : Byte)
  | msRelease (b : Byte)
  | msClick (b : Byte)
  | msSetButtons (left right middle back forward : Bool)
  -- unit 4, joystick
  | jsSetByte (idx : Word) (v : Byte)
  | jsSendNow
  -- unit 5, system
  | sysReboot
  | sysRestart
  | csEnter
  | csExit (s : Bool)
  deriving DecidableEq, Repr

end Sys2Proof
end

