-- ==== Sys2Proof/WellFormed.lean ====
section
/-! DEFINITION. Which terms of `Instr` are commands: those whose operands 30_encoding.md R82 can produce. The one
check R82 leaves beyond the operands' types is the button mask of MS_PRESS, MS_RELEASE and MS_CLICK, which has
already been taken `& 0x1F`. -/

namespace Sys2Proof

/-- The mask `0x1F` of the five mouse buttons (R82, 10_state.md R41). -/
def buttonMask : Byte := 0x1F#8

/-- A button operand names only the five buttons (R82). -/
def buttonsOk (b : Byte) : Bool := b &&& buttonMask == b

/-- The well-formed commands (R82). -/
def Instr.wf : Instr → Bool
  | .millis | .micros | .delay _ | .delayUs _ => true
  | .serAvailable | .serPeek | .serRead | .serFlush | .serWrite _ _ | .serSendNow => true
  | .serBaud | .serStopbits | .serParitytype | .serNumbits | .serDtr | .serRts | .serReady => true
  | .serGetWriteError => true
  | .kbSetModifier _ | .kbSetKey1 _ | .kbSetKey2 _ | .kbSetKey3 _ => true
  | .kbSetKey4 _ | .kbSetKey5 _ | .kbSetKey6 _ => true
  | .kbSendNow | .kbReleaseAll | .kbType _ _ => true
  | .msMove _ _ _ _ => true
  | .msPress b => buttonsOk b
  | .msRelease b => buttonsOk b
  | .msClick b => buttonsOk b
  | .msSetButtons _ _ _ _ _ => true
  | .jsSetByte _ _ | .jsSendNow => true
  | .sysReboot | .sysRestart | .csEnter | .csExit _ => true

end Sys2Proof
end

