-- ==== Sys2Proof/Decode.lean ====
section
/-! DEFINITION. The decoder of 30_encoding.md R81 to R84, total on every triple and rejecting reserved values by
name, and the encoder of R86. -/

namespace Sys2Proof

/-- Why a command is not decoded: its `CMD` is reserved (R84). -/
inductive DecodeError where
  /-- Units 6 to 15. -/
  | reservedUnit (unit : Nat)
  /-- A function value its unit does not define. -/
  | reservedFunc (unit func : Nat)
  deriving DecidableEq, Repr

/-! ## Operand fields (R82) -/

/-- `v[7:0]`. -/
def byte0 (v : Word) : Byte := v.extractLsb' 0 8
/-- `v[15:8]`. -/
def byte1 (v : Word) : Byte := v.extractLsb' 8 8
/-- `v[23:16]`. -/
def byte2 (v : Word) : Byte := v.extractLsb' 16 8
/-- `v[31:24]`. -/
def byte3 (v : Word) : Byte := v.extractLsb' 24 8
/-- `v[7:0] & 0x1F`, a button mask. -/
def buttonBits (v : Word) : Byte := byte0 v &&& buttonMask

/-! ## Decoding -/

/-- `unit = CMD[7:4]` (R81). -/
def unitOf (cmd : Byte) : Nat := cmd.toNat / 16
/-- `func = CMD[3:0]` (R81). -/
def funcOf (cmd : Byte) : Nat := cmd.toNat % 16

/-- Unit 0, the clock (R83). -/
def decodeClock (func : Nat) (a0 : Word) : Except DecodeError Instr :=
  match func with
  | 0x0 => .ok .millis
  | 0x1 => .ok .micros
  | 0x2 => .ok (.delay a0)
  | 0x3 => .ok (.delayUs a0)
  | f => .error (.reservedFunc 0 f)

/-- Unit 1, CDC serial (R83). -/
def decodeSerial (func : Nat) (a0 a1 : Word) : Except DecodeError Instr :=
  match func with
  | 0x0 => .ok .serAvailable
  | 0x1 => .ok .serPeek
  | 0x2 => .ok .serRead
  | 0x3 => .ok .serFlush
  | 0x4 => .ok (.serWrite a0 a1)
  | 0x5 => .ok .serSendNow
  | 0x6 => .ok .serBaud
  | 0x7 => .ok .serStopbits
  | 0x8 => .ok .serParitytype
  | 0x9 => .ok .serNumbits
  | 0xA => .ok .serDtr
  | 0xB => .ok .serRts
  | 0xC => .ok .serReady
  | 0xD => .ok .serGetWriteError
  | f => .error (.reservedFunc 1 f)

/-- Unit 2, the keyboard (R83). -/
def decodeKeyboard (func : Nat) (a0 a1 : Word) : Except DecodeError Instr :=
  match func with
  | 0x0 => .ok (.kbSetModifier (byte0 a0))
  | 0x1 => .ok (.kbSetKey1 (byte0 a0))
  | 0x2 => .ok (.kbSetKey2 (byte0 a0))
  | 0x3 => .ok (.kbSetKey3 (byte0 a0))
  | 0x4 => .ok (.kbSetKey4 (byte0 a0))
  | 0x5 => .ok (.kbSetKey5 (byte0 a0))
  | 0x6 => .ok (.kbSetKey6 (byte0 a0))
  | 0x7 => .ok .kbSendNow
  | 0x8 => .ok .kbReleaseAll
  | 0x9 => .ok (.kbType (byte0 a0) (byte0 a1))
  | f => .error (.reservedFunc 2 f)

/-- Unit 3, the mouse (R83). -/
def decodeMouse (func : Nat) (a0 : Word) : Except DecodeError Instr :=
  match func with
  | 0x0 => .ok (.msMove (byte0 a0) (byte1 a0) (byte2 a0) (byte3 a0))
  | 0x1 => .ok (.msPress (buttonBits a0))
  | 0x2 => .ok (.msRelease (buttonBits a0))
  | 0x3 => .ok (.msClick (buttonBits a0))
  | 0x4 => .ok (.msSetButtons (a0.getLsbD 0) (a0.getLsbD 1) (a0.getLsbD 2) (a0.getLsbD 3) (a0.getLsbD 4))
  | f => .error (.reservedFunc 3 f)

/-- Unit 4, the joystick (R83). -/
def decodeJoystick (func : Nat) (a0 a1 : Word) : Except DecodeError Instr :=
  match func with
  | 0x0 => .ok (.jsSetByte a0 (byte0 a1))
  | 0x1 => .ok .jsSendNow
  | f => .error (.reservedFunc 4 f)

/-- Unit 5, the system commands (R83). -/
def decodeSystem (func : Nat) (a0 : Word) : Except DecodeError Instr :=
  match func with
  | 0x0 => .ok .sysReboot
  | 0x1 => .ok .sysRestart
  | 0x2 => .ok .csEnter
  | 0x3 => .ok (.csExit (a0.getLsbD 0))
  | f => .error (.reservedFunc 5 f)

/-- The decoder (R81 to R84): `CMD` alone chooses the command. -/
def decode (c : Command) : Except DecodeError Instr :=
  match unitOf c.cmd with
  | 0 => decodeClock (funcOf c.cmd) c.arg0
  | 1 => decodeSerial (funcOf c.cmd) c.arg0 c.arg1
  | 2 => decodeKeyboard (funcOf c.cmd) c.arg0 c.arg1
  | 3 => decodeMouse (funcOf c.cmd) c.arg0
  | 4 => decodeJoystick (funcOf c.cmd) c.arg0 c.arg1
  | 5 => decodeSystem (funcOf c.cmd) c.arg0
  | u => .error (.reservedUnit u)

/-! ## Encoding -/

/-- The `CMD` value of a command (R83). -/
def Instr.opcode : Instr → Byte
  | .millis => 0x00#8
  | .micros => 0x01#8
  | .delay _ => 0x02#8
  | .delayUs _ => 0x03#8
  | .serAvailable => 0x10#8
  | .serPeek => 0x11#8
  | .serRead => 0x12#8
  | .serFlush => 0x13#8
  | .serWrite _ _ => 0x14#8
  | .serSendNow => 0x15#8
  | .serBaud => 0x16#8
  | .serStopbits => 0x17#8
  | .serParitytype => 0x18#8
  | .serNumbits => 0x19#8
  | .serDtr => 0x1A#8
  | .serRts => 0x1B#8
  | .serReady => 0x1C#8
  | .serGetWriteError => 0x1D#8
  | .kbSetModifier _ => 0x20#8
  | .kbSetKey1 _ => 0x21#8
  | .kbSetKey2 _ => 0x22#8
  | .kbSetKey3 _ => 0x23#8
  | .kbSetKey4 _ => 0x24#8
  | .kbSetKey5 _ => 0x25#8
  | .kbSetKey6 _ => 0x26#8
  | .kbSendNow => 0x27#8
  | .kbReleaseAll => 0x28#8
  | .kbType _ _ => 0x29#8
  | .msMove _ _ _ _ => 0x30#8
  | .msPress _ => 0x31#8
  | .msRelease _ => 0x32#8
  | .msClick _ => 0x33#8
  | .msSetButtons _ _ _ _ _ => 0x34#8
  | .jsSetByte _ _ => 0x40#8
  | .jsSendNow => 0x41#8
  | .sysReboot => 0x50#8
  | .sysRestart => 0x51#8
  | .csEnter => 0x52#8
  | .csExit _ => 0x53#8

/-- A byte operand in the low byte of its register, the rest 0 (R86). -/
def byteArg (v : Byte) : Word := v.setWidth 32

/-- `ARG0 = {horiz, wheel, y, x}` of MS_MOVE (R86). -/
def moveArg (x y wheel horiz : Byte) : Word := horiz ++ wheel ++ y ++ x

/-- `ARG0 = {f, b, m, r, l}` of MS_SET_BUTTONS, in bits 4 to 0 (R86). -/
def buttonsArg (l r m b f : Bool) : Word :=
  (BitVec.ofBool f ++ BitVec.ofBool b ++ BitVec.ofBool m ++ BitVec.ofBool r ++ BitVec.ofBool l).setWidth 32

/-- A boolean operand in bit 0 (R82, R86). -/
def boolArg (s : Bool) : Word := (BitVec.ofBool s).setWidth 32

/-- `ARG0` of the encoded form (R86); every operand not used is 0. -/
def Instr.encArg0 : Instr → Word
  | .delay ms => ms
  | .delayUs us => us
  | .serWrite buf _ => buf
  | .kbSetModifier v => byteArg v
  | .kbSetKey1 v => byteArg v
  | .kbSetKey2 v => byteArg v
  | .kbSetKey3 v => byteArg v
  | .kbSetKey4 v => byteArg v
  | .kbSetKey5 v => byteArg v
  | .kbSetKey6 v => byteArg v
  | .kbType mod _ => byteArg mod
  | .msMove x y w h => moveArg x y w h
  | .msPress b => byteArg b
  | .msRelease b => byteArg b
  | .msClick b => byteArg b
  | .msSetButtons l r m b f => buttonsArg l r m b f
  | .jsSetByte idx _ => idx
  | .csExit s => boolArg s
  | .millis | .micros | .serAvailable | .serPeek | .serRead | .serFlush | .serSendNow => 0
  | .serBaud | .serStopbits | .serParitytype | .serNumbits | .serDtr | .serRts | .serReady => 0
  | .serGetWriteError | .kbSendNow | .kbReleaseAll | .jsSendNow | .sysReboot | .sysRestart | .csEnter => 0

/-- `ARG1` of the encoded form (R86). -/
def Instr.encArg1 : Instr → Word
  | .serWrite _ size => size
  | .kbType _ key => byteArg key
  | .jsSetByte _ v => byteArg v
  | .millis | .micros | .delay _ | .delayUs _ => 0
  | .serAvailable | .serPeek | .serRead | .serFlush | .serSendNow => 0
  | .serBaud | .serStopbits | .serParitytype | .serNumbits | .serDtr | .serRts | .serReady => 0
  | .serGetWriteError => 0
  | .kbSetModifier _ | .kbSetKey1 _ | .kbSetKey2 _ | .kbSetKey3 _ => 0
  | .kbSetKey4 _ | .kbSetKey5 _ | .kbSetKey6 _ | .kbSendNow | .kbReleaseAll => 0
  | .msMove _ _ _ _ | .msPress _ | .msRelease _ | .msClick _ | .msSetButtons _ _ _ _ _ => 0
  | .jsSendNow | .sysReboot | .sysRestart | .csEnter | .csExit _ => 0

/-- The canonical encoded form, the triple `(CMD, ARG0, ARG1)` (R86). -/
def encode (i : Instr) : Command := ⟨i.opcode, i.encArg0, i.encArg1⟩

/-! ## The opcode table's numbering of bits -/

/-- The triple of a table word: the table's 8 bits are `CMD`; the operand registers count on from it, `ARG0` in bits
39 to 8 and `ARG1` in bits 71 to 40, and every bit from `nbits` up is 0 (log 13). -/
def commandOfTableWord (nbits w : Nat) : Command :=
  let v := w % 2 ^ nbits
  ⟨BitVec.ofNat 8 v, BitVec.ofNat 32 (v >>> 8), BitVec.ofNat 32 (v >>> 40)⟩

/-- What the decoder reads from a table word; none where `CMD` is reserved. -/
def decodeTableWord (nbits w : Nat) : Option Instr :=
  match decode (commandOfTableWord nbits w) with
  | .ok i => some i
  | .error _ => none

end Sys2Proof
end

