-- ==== Sys2Proof/Machine/State.lean ====
section
/-! DEFINITION. The state of the block (10_state.md), as plain data, its fault and refusal reasons, and the state at
reset (70_reset_and_hazards.md R260). -/

namespace Sys2Proof.Machine

/-- The fault codes of 60_exceptions.md R222. -/
inductive FaultCode where
  | illegalCmd | badOperand | badBuffer | selMismatch
  deriving DecidableEq, Repr

/-- The numbers of R222. -/
def FaultCode.number : FaultCode → Nat
  | .illegalCmd => 1
  | .badOperand => 2
  | .badBuffer => 3
  | .selMismatch => 4

/-- `status` (10_state.md R45). -/
inductive RunStatus where
  | running
  | faulted (code : FaultCode)
  | rebooted (entry : Nat)
  | restarted (address : Nat)
  deriving DecidableEq, Repr

/-- The locals of a MICROS sample between its two steps (40_clock.md R103): the captured interrupt state `s`, the
sampled `TCNT`, and whether the one TIMER_HW step the window admits has fallen in it. -/
structure Sample where
  saved : Bool
  t : Nat
  ticked : Bool
  deriving DecidableEq, Repr

/-- The command at `prog[cix]` is idle, or running and stopped at a named yield with its operation locals
(10_state.md R21, R22). -/
inductive Phase where
  | idle
  /-- MICROS between its two steps (R103). -/
  | microsWindow (w : Sample)
  /-- DELAY between the two steps of its `start` sample (R104). -/
  | delayFirst (w : Sample) (ms : Word)
  /-- DELAY at the `yield` of its loop (R104). -/
  | delayYield (ms start : Word)
  /-- DELAY between the two steps of a `now` sample (R104). -/
  | delayWindow (w : Sample) (ms start : Word)
  /-- SER_WRITE at the `yield` of `WaitWritable` (42_cdc_serial.md R155, 41_endpoint.md R130): the buffer cursor, the
  remaining size, the byte count and the wait's start frame. -/
  | serWait (buf size count start : Nat)
  /-- A HID command at the `yield` of `WaitWritable` in its send number `stage` (43_hid.md R200). -/
  | hidWait (stage start : Nat)
  /-- KB_TYPE or MS_CLICK at its own `yield` after send number `stage` (43_hid.md R189, R195). -/
  | hidYield (stage : Nat)
  deriving DecidableEq, Repr

/-- The line coding and control lines (10_state.md R32). -/
structure LineCoding where
  baud : Word
  stopbits : Byte
  paritytype : Byte
  numbits : Byte
  dtr : Bool
  rts : Bool
  deriving DecidableEq, Repr

/-- An IN endpoint: the bank being filled, the packets released and not yet taken (10_state.md R34), and the packets
the host has taken (R44), oldest first. -/
structure InEndpoint where
  cur : List Byte
  released : List (List Byte)
  hostLog : List (List Byte)
  deriving DecidableEq, Repr

/-- The link events of 60_exceptions.md R230. -/
inductive LinkEvent where
  | configure | deconfigure | suspend | resume
  deriving DecidableEq, Repr

/-- A step of an agent other than MAIN, with the values it draws: `sel` is the value a USB ISR leaves in `SEL`
(60_exceptions.md R232), `line` the line coding the host sets (R231), `packet` the bytes the host delivers
(41_endpoint.md R136). -/
inductive EnvStep where
  | timerHw
  | frameHw
  | timerIsr
  | sofIsr (sel : Endpoint)
  | link (event : LinkEvent) (sel : Endpoint)
  | lineCoding (line : LineCoding) (sel : Endpoint)
  | hostPoll (e : InEp)
  | hostDeliver (packet : List Byte)
  deriving DecidableEq, Repr

/-- A step of an agent (00_scope.md R3). -/
inductive AgentStep where
  | main
  | env (step : EnvStep)
  deriving DecidableEq, Repr

/-- Caller memory (10_state.md R43): the listed bytes, by rising address; an unlisted byte reads 0 (log 6). -/
abbrev Memory := List Host.Cell

/-- The block's state (10_state.md). -/
structure State where
  /-- The configuration (00_scope.md R6); no step writes it (log 1). -/
  cfg : Config
  /-- `CMD`, `ARG0`, `ARG1`, `RES` (R20). -/
  cmd : Byte
  arg0 : Word
  arg1 : Word
  res : Word
  /-- The command stream and the position in it (R21). -/
  prog : List Command
  cix : Nat
  /-- Where the command at `prog[cix]` stands (R21, R22). -/
  phase : Phase
  /-- `IE` (R23). -/
  ie : Bool
  /-- The clock counters (R24). -/
  microsCount : Word
  millisCount : Word
  fractionCount : Nat
  /-- The tick counter, its overflow flag, and whether it runs (R25 to R27). -/
  tcnt : Nat
  tov : Bool
  timerRunning : Bool
  /-- The link state (R28) and the attachment (R29). -/
  configured : Bool
  suspended : Bool
  usbAttached : Bool
  /-- `FRAME` (R30) and `SOF_PENDING` (R31). -/
  frame : Nat
  sofPending : Bool
  /-- The line coding and control lines (R32). -/
  line : LineCoding
  /-- `SEL` (R33). -/
  sel : Endpoint
  /-- The IN endpoints (R34, R44) and the OUT endpoint (R35). -/
  cdcTx : InEndpoint
  kbEp : InEndpoint
  msEp : InEndpoint
  jsEp : InEndpoint
  rx : List (List Byte)
  /-- The CDC channel (R36 to R39). -/
  peekByte : Option Byte
  txTimedOutPrev : Bool
  flushRemaining : Option Nat
  writeError : Bool
  /-- The HID reports (R40 to R42). -/
  kb : Vector Byte 8
  msButtons : Byte
  js : Vector Byte 12
  /-- Caller memory (R43) and the run status (R45). -/
  mem : Memory
  status : RunStatus
  /-- The model's own: whether boot has run (70_reset_and_hazards.md R262, log 4). -/
  booted : Bool
  /-- The model's own: the agent steps to come, an input (log 2). -/
  sched : List AgentStep
  deriving DecidableEq, Repr

/-- The host faults of a step: places where the spec gives no step, so the model stops. All are safe: the model stops
where the block has no behaviour. None is a fault of the block; those are `FaultCode`s in `status`. -/
inductive Fault where
  /-- MAIN's step when `cix = len(prog)` and nothing is scheduled: the run is complete (R264). Safe. -/
  | streamEnd
  /-- MAIN's step when `status` is not RUNNING and nothing is scheduled: the block is stuck
  (93_implementation_defined.md 20, 21). Safe. -/
  | halted (status : RunStatus)
  /-- A meaning found at a phase that is not one of its own; no run reaches it (log 9). Safe. -/
  | phaseMismatch
  /-- `EpAppend` without its precondition (41_endpoint.md R128); no run reaches it (log 9). Safe. -/
  | appendPrecondition
  /-- `RxTakeByte` or `RxReleaseHead` without its precondition (41_endpoint.md R132, R133); no run reaches it
  (log 9). Safe. -/
  | rxPrecondition
  deriving DecidableEq, Repr

/-- The refusals. No meaning of this model refuses. -/
inductive Refusal where
  /-- Raised by `exec` for a command that has no meaning yet; no arm is left so. Safe. -/
  | notModelled (mnemonic : String)
  deriving DecidableEq, Repr

/-- An empty IN endpoint. -/
def InEndpoint.empty : InEndpoint := ⟨[], [], []⟩

/-- The fields R260 leaves at "any value", and the inputs of a run: drawn, not fixed. -/
structure ResetDraws where
  cmd : Byte
  arg0 : Word
  arg1 : Word
  res : Word
  frame : Nat
  line : LineCoding
  sel : Endpoint
  mem : Memory
  prog : List Command
  sched : List AgentStep
  deriving DecidableEq, Repr

/-- The reset state of R260, for a configuration, the draws and the inputs. -/
def State.resetWith (c : Config) (d : ResetDraws) : State where
  cfg := c
  cmd := d.cmd
  arg0 := d.arg0
  arg1 := d.arg1
  res := d.res
  prog := d.prog
  cix := 0
  phase := .idle
  ie := false
  microsCount := 0
  millisCount := 0
  fractionCount := 0
  tcnt := 0
  tov := false
  timerRunning := false
  configured := false
  suspended := false
  usbAttached := false
  frame := d.frame
  sofPending := false
  line := d.line
  sel := d.sel
  cdcTx := .empty
  kbEp := .empty
  msEp := .empty
  jsEp := .empty
  rx := []
  peekByte := none
  txTimedOutPrev := false
  flushRemaining := none
  writeError := false
  kb := Vector.replicate 8 0
  msButtons := 0
  js := Vector.replicate 12 0
  mem := d.mem
  status := .running
  booted := false
  sched := d.sched

/-- The draws `State.reset` takes: zeros, `CDC_TX`, and no inputs. DESIGN CHOICE, unsafe (log 5, log 3, log 6). -/
def ResetDraws.zero : ResetDraws where
  cmd := 0
  arg0 := 0
  arg1 := 0
  res := 0
  frame := 0
  line := ⟨0, 0, 0, 0, false, false⟩
  sel := .cdcTx
  mem := []
  prog := []
  sched := []

/-- The machine right after reset: R260 under the suggested configuration (PRESUMED, log 1) and the zero draws. -/
def State.reset : State := State.resetWith Config.suggested ResetDraws.zero

end Sys2Proof.Machine
end

