-- ==== Sys2Proof/Machine/Ops.lean ====
section
/-! DEFINITION. The named operations every meaning is written in: caller memory (20_memory.md), completion and faults
(30_encoding.md R80, 60_exceptions.md R221), critical sections (41_endpoint.md R120, R121), the endpoint engine
(R123 to R137), interrupt entry and return (60_exceptions.md R227), and boot (70_reset_and_hazards.md R262). -/

namespace Sys2Proof.Machine

/-- The outcome of one step of this machine. -/
abbrev StepOutcome := Host.Outcome State Fault Refusal

/-! ## Caller memory (10_state.md R43, 20_memory.md R61) -/

namespace Memory

/-- `MemRead(a, 1)` (R61). A byte nothing lists reads 0 (log 6). -/
def read : Memory → Nat → Byte
  | [], _ => 0
  | (k, v) :: m, a => if a = k then v else read m a

/-- Set one byte, keeping addresses rising and zero bytes unlisted. The block never writes caller memory (R61); the
caller loads it with this before a run. -/
def write : Memory → Nat → Byte → Memory
  | [], a, v => if v = 0 then [] else [(a, v)]
  | (k, w) :: m, a, v =>
    if a < k then (if v = 0 then (k, w) :: m else (a, v) :: (k, w) :: m)
    else if a = k then (if v = 0 then m else (a, v) :: m)
    else (k, w) :: write m a v

/-- Load consecutive bytes from an address. -/
def load (m : Memory) (a : Nat) : List Byte → Memory
  | [] => m
  | b :: bs => load (m.write a b) (a + 1) bs

/-- `[MemRead(a + i, 1) for i = 0 .. n-1]` (42_cdc_serial.md R155). -/
def bytes (m : Memory) (a n : Nat) : List Byte := (List.range n).map fun i => m.read (a + i)

/-- The canonical form: addresses strictly rising, no byte listed at the value an unlisted address reads as. -/
abbrev wf (m : Memory) : Prop := m.Pairwise (fun c d => c.1 < d.1) ∧ ∀ c ∈ m, c.2 ≠ 0

end Memory

/-! ## Faults and completion -/

/-- Why a body of a meaning does not run through: it raises a fault of the block (R221), or it is called where the spec
gives it no meaning. -/
inductive Stop where
  | raise (code : FaultCode)
  | broken (fault : Fault)
  deriving DecidableEq, Repr

/-- `raise Fault(code)` (60_exceptions.md R221): `status` and nothing else. -/
def raiseFault (code : FaultCode) (s : State) : State := { s with status := .faulted code }

/-- One MAIN step from `s` with body `r`. A raised fault leaves the state as the step found it: faults are precise
(R221, log 14). -/
def conclude (s : State) (r : Except Stop State) : StepOutcome :=
  match r with
  | .ok t => .next t
  | .error (.raise code) => .next (raiseFault code s)
  | .error (.broken f) => .fault f

/-- `RES <- v ; done` (30_encoding.md R80): the locals are discarded and `cix` advances. -/
def complete (v : Word) (s : State) : State := { s with res := v, phase := .idle, cix := s.cix + 1 }

/-- A command that starts when idle and has no other phase. -/
def atIdle (body : State → Except Stop State) (s : State) : StepOutcome :=
  match s.phase with
  | .idle => conclude s (body s)
  | _ => .fault .phaseMismatch

/-! ## Critical sections (41_endpoint.md R120, R121) -/

/-- `CsEnter()`; the captured value is `IE` before the call. -/
def csEnter (s : State) : State := { s with ie := false }

/-- `CsExit(saved)`. -/
def csExit (saved : Bool) (s : State) : State := { s with ie := saved }

/-! ## Link and selection -/

/-- `LinkUsable()` (41_endpoint.md R123). -/
def linkUsable (s : State) : Bool := s.configured && !s.suspended

/-- `Select(e)` (R125). -/
def select (e : Endpoint) (s : State) : State := { s with sel := e }

/-- `CsEnter() ; Select(e)`, the opening of every endpoint access (R125). -/
def enterSelect (e : Endpoint) (s : State) : State := select e (csEnter s)

/-- The check of R126: an endpoint primitive acts on the endpoint `SEL` names. -/
def checkSel (e : Endpoint) (s : State) : Except Stop Unit :=
  if s.sel = e then .ok () else .error (.raise .selMismatch)

/-! ## The IN endpoints -/

/-- The IN endpoint `e` (10_state.md R34). -/
def State.inEp (s : State) : InEp → InEndpoint
  | .cdcTx => s.cdcTx
  | .kb => s.kbEp
  | .ms => s.msEp
  | .js => s.jsEp

/-- Replace the IN endpoint `e`. -/
def State.setInEp (s : State) (e : InEp) (v : InEndpoint) : State :=
  match e with
  | .cdcTx => { s with cdcTx := v }
  | .kb => { s with kbEp := v }
  | .ms => { s with msEp := v }
  | .js => { s with jsEp := v }

/-- The formula of `EpWritable(e)` (R127). -/
def writable (e : InEp) (s : State) : Bool :=
  decide ((s.inEp e).released.length < s.cfg.banks.at e ∧ (s.inEp e).cur.length < s.cfg.size.at e)

/-- `EpWritable(e)` (R127), with the check of R126. -/
def epWritable (e : InEp) (s : State) : Except Stop Bool := do
  checkSel e.toEndpoint s
  return writable e s

/-- The bank after `EpAppend` (R128). -/
def InEndpoint.append (p : InEndpoint) (bs : List Byte) : InEndpoint := { p with cur := p.cur ++ bs }

/-- `EpAppend(e, bytes)` (R128), with its precondition. -/
def epAppend (e : InEp) (bs : List Byte) (s : State) : Except Stop State := do
  checkSel e.toEndpoint s
  if writable e s ∧ (s.inEp e).cur.length + bs.length ≤ s.cfg.size.at e then
    return s.setInEp e ((s.inEp e).append bs)
  else
    throw (.broken .appendPrecondition)

/-- The endpoint after `EpRelease` (R129): an empty bank is never released. -/
def InEndpoint.release (p : InEndpoint) : InEndpoint :=
  if p.cur = [] then p else { p with released := p.released ++ [p.cur], cur := [] }

/-- `EpRelease(e)` (R129). -/
def epRelease (e : InEp) (s : State) : Except Stop State := do
  checkSel e.toEndpoint s
  return s.setInEp e (s.inEp e).release

/-! ## The OUT endpoint -/

/-- `Σ len(p)` over the received banks (R131). -/
def rxCount (rx : List (List Byte)) : Nat := (rx.map List.length).sum

/-- `RxTotal()` (R131). -/
def rxTotal (s : State) : Except Stop Nat := do
  checkSel .cdcRx s
  return rxCount s.rx

/-- `RxTakeByte()` (R132). -/
def rxTakeByte (s : State) : Except Stop (Byte × State) := do
  checkSel .cdcRx s
  match s.rx with
  | (b :: bank) :: rest => return (b, { s with rx := bank :: rest })
  | _ => throw (.broken .rxPrecondition)

/-- `RxReleaseHead()` (R133). -/
def rxReleaseHead (s : State) : Except Stop State := do
  checkSel .cdcRx s
  match s.rx with
  | _ :: rest => return { s with rx := rest }
  | [] => throw (.broken .rxPrecondition)

/-- `RxReleaseAll()` (R134). -/
def rxReleaseAll (s : State) : Except Stop State := do
  checkSel .cdcRx s
  return { s with rx := [] }

/-! ## The wait state machine (41_endpoint.md R130) -/

/-- Where `WaitWritable` stands after a MAIN step of it: one of its three outcomes, or stopped at its `yield`. -/
inductive WaitOut where
  /-- `Ready`, the critical section held with captured state `saved`. -/
  | ready (saved : Bool) (s : State)
  | yielded (s : State)
  | timedOut (s : State)
  | linkLost (s : State)

/-- The head of the loop: `if EpWritable(e): return Ready`, else `CsExit(saved) ; yield`. -/
def waitHead (e : InEp) (saved : Bool) (s : State) : Except Stop WaitOut := do
  if (← epWritable e s) then return .ready saved s else return .yielded (csExit saved s)

/-- After the `yield`: the link check, the deadline check, then `s <- CsEnter() ; Select(e)` and the head again. -/
def waitResume (e : InEp) (budget start : Nat) (s : State) : Except Stop WaitOut :=
  if !linkUsable s then .ok (.linkLost s)
  else if budget ≤ subMod s.cfg.frameBits s.frame start then .ok (.timedOut s)
  else waitHead e s.ie (enterSelect e.toEndpoint s)

/-! ## The generic fixed-report send (43_hid.md R200) -/

/-- What `HidSend` does with an outcome of its wait; `k` is the rest of the command after it returns, and `stage` and
`start` name the wait should it go on. -/
def hidAfterWait (e : InEp) (report : List Byte) (stage start : Nat) (k : State → State) :
    WaitOut → Except Stop State
  | .ready saved s => do
    let s ← epAppend e report s
    let s ← epRelease e s
    return k (csExit saved s)
  | .yielded s => return { s with phase := .hidWait stage start }
  | .timedOut s => return k s
  | .linkLost s => return k s

/-- `HidSend(e, report)` from its first line. -/
def hidSend (e : InEp) (report : List Byte) (stage : Nat) (k : State → State) (s : State) : Except Stop State :=
  if linkUsable s then do
    let w ← waitHead e s.ie (enterSelect e.toEndpoint s)
    hidAfterWait e report stage s.frame k w
  else
    return k s

/-- `HidSend(e, report)` from the `yield` of its wait. -/
def hidResume (e : InEp) (report : List Byte) (stage start : Nat) (k : State → State) (s : State) :
    Except Stop State := do
  let w ← waitResume e s.cfg.hidTimeout start s
  hidAfterWait e report stage start k w

/-- The rest of a command whose send was its last: `RES <- 0 ; done`. -/
def finishVoid (s : State) : State := complete 0 s

/-- The rest of a command that yields after send number `stage` (43_hid.md R189, R195). -/
def yieldAfter (stage : Nat) (s : State) : State := { s with phase := .hidYield stage }

/-! ## Interrupt entry and return (60_exceptions.md R225, R227) -/

/-- The condition of every ISR step but its source (R225): running and interrupts enabled. -/
def isrAllowed (s : State) : Bool := decide (s.status = .running) && s.ie

/-- Entry: interrupts off; nothing is saved (R227). -/
def isrEnter (s : State) : State := { s with ie := false }

/-- Return: `IE <- 1`, the value it had at entry (R227). -/
def isrReturn (s : State) : State := { s with ie := true }

/-- The return of a USB ISR: `SEL` holds any value `sel` (R232). -/
def usbReturn (sel : Endpoint) (s : State) : State := isrReturn (select sel s)

/-! ## Boot (70_reset_and_hazards.md R262) -/

/-- Boot, one atomic step: the timer starts, the device attaches, interrupts are enabled. -/
def boot (s : State) : State :=
  { s with timerRunning := true, usbAttached := true, ie := true, booted := true }

end Sys2Proof.Machine
end

