-- ==== Sys2Proof/Machine/Operands.lean ====
section
/-! DEFINITION. Operand and result forms: what a meaning makes of an operand (30_encoding.md R82) and how a result
becomes the 32 bits of `RES` (00_scope.md R12). The fields themselves are cut out in Decode.lean. -/

namespace Sys2Proof.Machine

/-- `buf = ARG0[ADDR_BITS-1:0]`, an address (R82). -/
def bufAddress (c : Config) (a0 : Word) : Nat := a0.toNat % 2 ^ c.addrBits

/-- The buffer check of SER_WRITE (20_memory.md R61): `size > 0 and buf + size > 2^ADDR_BITS`. -/
def bufferBad (c : Config) (buf size : Nat) : Bool := decide (0 < size ∧ 2 ^ c.addrBits < buf + size)

/-- `clamp(v)` of MS_MOVE on an i8 byte: -128 becomes -127 (43_hid.md R192). -/
def clampDelta (v : Byte) : Byte := if v = 0x80#8 then 0x81#8 else v

/-- `zext_8(ARG0[4:0])` of MS_SET_BUTTONS: left bit 0 to forward bit 4 (43_hid.md R196). -/
def buttonsByte (left right middle back forward : Bool) : Byte :=
  (BitVec.ofBool forward ++ BitVec.ofBool back ++ BitVec.ofBool middle ++ BitVec.ofBool right ++
    BitVec.ofBool left).setWidth 8

/-- The keyboard report `kb[0..7]` (20_memory.md R62). -/
def kbReport (s : State) : List Byte := s.kb.toList

/-- The mouse report `[msButtons, x, y, wheel, horiz]` (R62). -/
def msReport (s : State) (x y wheel horiz : Byte) : List Byte := [s.msButtons, x, y, wheel, horiz]

/-- The mouse report of a command that has no deltas (43_hid.md section 3). -/
def msButtonReport (s : State) : List Byte := msReport s 0 0 0 0

/-- The joystick report `js[0..11]` (R62). -/
def jsReport (s : State) : List Byte := s.js.toList

/-- A boolean result: 0 or 1 (R12). -/
def boolResult (b : Bool) : Word := if b then 1 else 0

/-- A `u8` result: `zext_32` (R12). -/
def byteResult (b : Byte) : Word := b.setWidth 32

/-- A natural number below `2^32` as a result (R12). -/
def natResult (n : Nat) : Word := BitVec.ofNat 32 n

/-- An `i16` result: a byte, or the sentinel -1 sign-extended to `0xFFFFFFFF` (R11, R12). -/
def byteOrMinusOne : Option Byte → Word
  | some b => byteResult b
  | none => 0xFFFFFFFF#32

end Sys2Proof.Machine
end

