-- ==== Sys2Proof/Machine/Flags.lean ====
section
/-! DEFINITION. The flag rules of 10_state.md R46: the sticky flags and the flush deadline of the CDC channel, and the
pending conditions of the interrupt sources (60_exceptions.md R224). -/

namespace Sys2Proof.Machine

/-- `writeError <- 1` (42_cdc_serial.md R155); nothing clears it. -/
def markWriteError (s : State) : State := { s with writeError := true }

/-- A transmit wait timed out: `txTimedOutPrev <- 1 ; writeError <- 1` (R155). -/
def markTimedOut (s : State) : State := { s with txTimedOutPrev := true, writeError := true }

/-- `txTimedOutPrev <- 0` (R155). -/
def clearTimedOut (s : State) : State := { s with txTimedOutPrev := false }

/-- `flushRemaining <- some TX_FLUSH` (R155). -/
def armFlush (s : State) : State := { s with flushRemaining := some s.cfg.txFlush }

/-- `flushRemaining <- none` (R155, R156). -/
def disarmFlush (s : State) : State := { s with flushRemaining := none }

/-- `FlushService()` (R157), the body of the SOF ISR. -/
def flushService (s : State) : Except Stop State :=
  match s.flushRemaining with
  | none => .ok s
  | some k =>
    if 1 < k then .ok { s with flushRemaining := some (k - 1) }
    else do
      let s ← epRelease .cdcTx (select .cdcTx s)
      return disarmFlush s

/-- Whether a timer ISR step is enabled: `TOV = 1` (60_exceptions.md R224, R225). -/
def timerIsrEnabled (s : State) : Bool := isrAllowed s && s.tov

/-- Whether an SOF ISR step is enabled: `SOF_PENDING = 1` (R224, R225). -/
def sofIsrEnabled (s : State) : Bool := isrAllowed s && s.sofPending

/-- The condition of a link event, beside `usbAttached = 1` (R230). -/
def linkCondition (s : State) : LinkEvent → Bool
  | .configure => !s.suspended
  | .deconfigure => s.configured
  | .suspend => !s.suspended
  | .resume => s.suspended

/-- Whether a link ISR step is enabled (R230, R225). -/
def linkIsrEnabled (event : LinkEvent) (s : State) : Bool := isrAllowed s && s.usbAttached && linkCondition s event

/-- Whether the line-coding ISR step is enabled (R231, R225). -/
def lineIsrEnabled (s : State) : Bool := isrAllowed s && s.usbAttached && linkUsable s

end Sys2Proof.Machine
end

