-- ==== Sys2Proof/Machine/Clock.lean ====
section
/-! DEFINITION. The monotonic clock (40_clock.md): the tick handler, the MICROS sample, and the commands MILLIS,
MICROS, DELAY and DELAY_US. -/

namespace Sys2Proof.Machine

/-- `onTimerTick` (R101): the coarse counter, the millisecond counter and the carry. -/
def onTimerTick (s : State) : State :=
  let f := s.fractionCount + s.cfg.fractInc
  let carry := decide (s.cfg.fractMax ≤ f)
  { s with
    microsCount := s.microsCount + BitVec.ofNat 32 s.cfg.tickUs
    millisCount := s.millisCount + BitVec.ofNat 32 s.cfg.millisInc + (if carry then 1 else 0)
    fractionCount := if carry then f - s.cfg.fractMax else f }

/-- Step 1 of `MicrosSample()` (R103): `s <- CsEnter() ; T <- TCNT`. The locals. -/
def sampleLocals (s : State) : Sample := { saved := s.ie, t := s.tcnt, ticked := false }

/-- The correction of R103: a tick that fired and is not processed, suppressed when `T` reads `TCNT_MAX`. -/
def sampleCorrection (c : Config) (t : Nat) (tov : Bool) : Word :=
  if tov = true ∧ t ≠ c.tcntMax then BitVec.ofNat 32 c.tickUs else 0

/-- The value of `MicrosSample()` (R103), from `M`, `T` and `F`. -/
def sampleValue (c : Config) (m : Word) (t : Nat) (tov : Bool) : Word :=
  m + sampleCorrection c t tov + BitVec.ofNat 32 (t * c.usPerCount)

/-- Step 2 of `MicrosSample()`: read `TOV` and `microsCount`; the value. -/
def sampleNow (w : Sample) (s : State) : Word := sampleValue s.cfg s.microsCount w.t s.tov

/-- MILLIS (R102). -/
def execMillis (s : State) : StepOutcome :=
  atIdle (fun s => .ok (complete s.millisCount (csExit s.ie (csEnter s)))) s

/-- MICROS (R103), two steps. -/
def execMicros (s : State) : StepOutcome :=
  match s.phase with
  | .idle => .next { csEnter s with phase := .microsWindow (sampleLocals s) }
  | .microsWindow w => .next (complete (sampleNow w s) (csExit w.saved s))
  | _ => .fault .phaseMismatch

/-- The head of DELAY's loop (R104): `while ms > 0: yield`, else done. -/
def delayHead (ms start : Word) (s : State) : State :=
  if ms = 0 then complete 0 s else { s with phase := .delayYield ms start }

/-- The body of DELAY's loop after its sample (R104): a millisecond is counted when at least 1000 have passed. -/
def delayCount (ms start now : Word) (s : State) : State :=
  if 1000#32 ≤ now - start then delayHead (ms - 1) (start + 1000) s else delayHead ms start s

/-- DELAY (R104). -/
def execDelay (ms : Word) (s : State) : StepOutcome :=
  match s.phase with
  | .idle => .next { csEnter s with phase := .delayFirst (sampleLocals s) ms }
  | .delayFirst w ms => .next (delayHead ms (sampleNow w s) (csExit w.saved s))
  | .delayYield ms start => .next { csEnter s with phase := .delayWindow (sampleLocals s) ms start }
  | .delayWindow w ms start => .next (delayCount ms start (sampleNow w s) (csExit w.saved s))
  | _ => .fault .phaseMismatch

/-- DELAY_US (R105): the wait is timing; `us` does not affect the state. -/
def execDelayUs (_us : Word) (s : State) : StepOutcome := atIdle (fun s => .ok (complete 0 s)) s

end Sys2Proof.Machine
end

