-- ==== Sys2Proof/Machine/SerialRx.lean ====
section
/-! DEFINITION. The CDC receive path and the link-status accessors (42_cdc_serial.md sections 1 and 3). -/

namespace Sys2Proof.Machine

/-- The loop of `RxGet()` (R153), inside its critical section. Each retry shortens `rx`, so `rx.length` bounds it. -/
def rxLoop : Nat → State → Except Stop (Option Byte × State)
  | 0, s => .ok (none, s)
  | n + 1, s =>
    match s.rx with
    | [] => .ok (none, s)
    | [] :: _ => do
      let s ← rxReleaseHead s
      rxLoop n s
    | (_ :: _) :: _ => do
      let (b, s) ← rxTakeByte s
      if s.rx.head? = some [] then
        let s ← rxReleaseHead s
        return (some b, s)
      else
        return (some b, s)

/-- `RxGet()` (R153): a byte, or none for the sentinel -1. -/
def rxGet (s : State) : Except Stop (Option Byte × State) :=
  if linkUsable s then do
    let (v, t) ← rxLoop s.rx.length (enterSelect .cdcRx s)
    return (v, csExit s.ie t)
  else
    .ok (none, csExit s.ie (csEnter s))

/-- SER_AVAILABLE (R150). -/
def execSerAvailable (s : State) : StepOutcome :=
  atIdle (fun s => do
    let t := enterSelect .cdcRx s
    let n ← if linkUsable t then rxTotal t else pure 0
    let p := if s.peekByte = none then 0 else 1
    return complete (natResult (min (n + p) 255)) (csExit s.ie t)) s

/-- SER_PEEK (R151). -/
def execSerPeek (s : State) : StepOutcome :=
  atIdle (fun s =>
    match s.peekByte with
    | some b => .ok (complete (byteResult b) s)
    | none => do
      let (v, s) ← rxGet s
      match v with
      | some b => return complete (byteOrMinusOne v) { s with peekByte := some b }
      | none => return complete (byteOrMinusOne v) s) s

/-- SER_READ (R152). -/
def execSerRead (s : State) : StepOutcome :=
  atIdle (fun s =>
    match s.peekByte with
    | some b => .ok (complete (byteResult b) { s with peekByte := none })
    | none => do
      let (v, s) ← rxGet s
      return complete (byteOrMinusOne v) s) s

/-- SER_FLUSH (R154). -/
def execSerFlush (s : State) : StepOutcome :=
  atIdle (fun s => do
    let t := csEnter s
    let t ← if linkUsable t then rxReleaseAll (select .cdcRx t) else pure t
    return complete 0 { csExit s.ie t with peekByte := none }) s

/-! ## Accessors: `s <- CsEnter() ; v <- field ; CsExit(s) ; RES <- v ; done` -/

/-- The accessor template. -/
def accessor (field : State → Word) (s : State) : StepOutcome :=
  atIdle (fun s =>
    let t := csEnter s
    .ok (complete (field t) (csExit s.ie t))) s

/-- SER_BAUD (R160). -/
def execSerBaud (s : State) : StepOutcome := accessor (fun s => s.line.baud) s

/-- SER_STOPBITS (R161). -/
def execSerStopbits (s : State) : StepOutcome := accessor (fun s => byteResult s.line.stopbits) s

/-- SER_PARITYTYPE (R162). -/
def execSerParitytype (s : State) : StepOutcome := accessor (fun s => byteResult s.line.paritytype) s

/-- SER_NUMBITS (R163). -/
def execSerNumbits (s : State) : StepOutcome := accessor (fun s => byteResult s.line.numbits) s

/-- SER_DTR (R164). -/
def execSerDtr (s : State) : StepOutcome := accessor (fun s => boolResult s.line.dtr) s

/-- SER_RTS (R165). -/
def execSerRts (s : State) : StepOutcome := accessor (fun s => boolResult s.line.rts) s

/-- The link-ready predicate (R166). -/
def linkReady (s : State) : Bool := linkUsable s && (!s.cfg.readyRequiresDtr || s.line.dtr)

/-- SER_READY (R166). -/
def execSerReady (s : State) : StepOutcome := accessor (fun s => boolResult (linkReady s)) s

/-- SER_GET_WRITE_ERROR (R167); MAIN-only state, no critical section. -/
def execSerGetWriteError (s : State) : StepOutcome :=
  atIdle (fun s => .ok (complete (boolResult s.writeError) s)) s

end Sys2Proof.Machine
end

