-- ==== Sys2Proof/Machine/SerialTx.lean ====
section
/-! DEFINITION. The CDC transmit path and packet framer (42_cdc_serial.md section 2): SER_WRITE and SER_SEND_NOW. -/

namespace Sys2Proof.Machine

/-- `n <- min(SIZE[CDC_TX] - len(cur[CDC_TX]), size)` (R155). -/
def chunkLen (s : State) (size : Nat) : Nat := min (s.cfg.size.cdcTx - s.cdcTx.cur.length) size

/-- One pass of the loop after `Ready` (R155): append a chunk, then release a full packet and disarm, or arm the
deadline for a partial one. -/
def writeChunk (buf size : Nat) (s : State) : Except Stop State := do
  let t ← epAppend .cdcTx (s.mem.bytes buf (chunkLen s size)) s
  if t.cdcTx.cur.length = t.cfg.size.cdcTx then
    let t ← epRelease .cdcTx t
    return disarmFlush t
  else
    return armFlush t

/-- The end of the loop: `CsExit(s) ; RES <- count ; done`. -/
def writeDone (saved : Bool) (count : Nat) (s : State) : State := complete (natResult count) (csExit saved s)

/-- What the loop does with an outcome of its wait (R155); `loop` is the loop again, with the captured state, the
cursor, the remaining size and the count. -/
def writeAfterWait (loop : Bool → Nat → Nat → Nat → State → Except Stop State) (buf size count start : Nat) :
    WaitOut → Except Stop State
  | .ready saved s => do
    let n := chunkLen s size
    let t ← writeChunk buf size s
    loop saved (buf + n) (size - n) (count + n) t
  | .yielded s => return { s with phase := .serWait buf size count start }
  | .timedOut s => return complete (natResult count) (markTimedOut s)
  | .linkLost s => return complete (natResult count) (markWriteError s)

/-- `while size > 0` (R155). Every pass writes at least one byte, so a bound of `size` passes is never the reason to
stop: at bound 0 the remaining size is 0. -/
def writeLoop : Nat → Bool → Nat → Nat → Nat → State → Except Stop State
  | 0, saved, _, _, count, s => .ok (writeDone saved count s)
  | fuel + 1, saved, buf, size, count, s =>
    if size = 0 then .ok (writeDone saved count s)
    else do
      let w ← waitHead .cdcTx saved s
      writeAfterWait (writeLoop fuel) buf size count s.frame w

/-- SER_WRITE from its first line (R155). -/
def writeStart (buf size : Nat) (s : State) : Except Stop State :=
  if bufferBad s.cfg buf size then .error (.raise .badBuffer)
  else if !linkUsable s then .ok (complete 0 (markWriteError s))
  else do
    let t := enterSelect .cdcTx s
    if t.txTimedOutPrev then
      if (← epWritable .cdcTx t) then
        writeLoop size s.ie buf size 0 (clearTimedOut t)
      else
        return complete 0 (markWriteError (csExit s.ie t))
    else
      writeLoop size s.ie buf size 0 t

/-- SER_WRITE from the `yield` of its wait (R155, 41_endpoint.md R130). -/
def writeResume (buf size count start : Nat) (s : State) : Except Stop State := do
  let w ← waitResume .cdcTx s.cfg.txTimeout start s
  writeAfterWait (writeLoop size) buf size count start w

/-- SER_WRITE (R155). -/
def execSerWrite (buf size : Word) (s : State) : StepOutcome :=
  match s.phase with
  | .idle => conclude s (writeStart (bufAddress s.cfg buf) size.toNat s)
  | .serWait buf size count start => conclude s (writeResume buf size count start s)
  | _ => .fault .phaseMismatch

/-- SER_SEND_NOW (R156). -/
def execSerSendNow (s : State) : StepOutcome :=
  atIdle (fun s => do
    let t := csEnter s
    if linkUsable t ∧ t.flushRemaining ≠ none then
      let t ← epRelease .cdcTx (select .cdcTx t)
      return complete 0 (csExit s.ie (disarmFlush t))
    else
      return complete 0 (csExit s.ie t)) s

end Sys2Proof.Machine
end

