-- ==== Sys2Proof/Machine/Keyboard.lean ====
section
/-! DEFINITION. The keyboard commands (43_hid.md section 2). -/

namespace Sys2Proof.Machine

/-- `kb[i] <- v`. -/
def setKb (i : Fin 8) (v : Byte) (s : State) : State := { s with kb := s.kb.set i.val v }

/-- A setter: `kb[i] <- v ; RES <- 0 ; done`. -/
def kbSetter (i : Fin 8) (v : Byte) (s : State) : StepOutcome :=
  atIdle (fun s => .ok (complete 0 (setKb i v s))) s

/-- KB_SET_MODIFIER (R180). -/
def execKbSetModifier (v : Byte) (s : State) : StepOutcome := kbSetter 0 v s

/-- KB_SET_KEY1 (R181). -/
def execKbSetKey1 (v : Byte) (s : State) : StepOutcome := kbSetter 2 v s

/-- KB_SET_KEY2 (R182). -/
def execKbSetKey2 (v : Byte) (s : State) : StepOutcome := kbSetter 3 v s

/-- KB_SET_KEY3 (R183). -/
def execKbSetKey3 (v : Byte) (s : State) : StepOutcome := kbSetter 4 v s

/-- KB_SET_KEY4 (R184). -/
def execKbSetKey4 (v : Byte) (s : State) : StepOutcome := kbSetter 5 v s

/-- KB_SET_KEY5 (R185). -/
def execKbSetKey5 (v : Byte) (s : State) : StepOutcome := kbSetter 6 v s

/-- KB_SET_KEY6 (R186). -/
def execKbSetKey6 (v : Byte) (s : State) : StepOutcome := kbSetter 7 v s

/-- `HidSend(KB, kb[0..7])` from its first line. -/
def kbSend (stage : Nat) (k : State → State) (s : State) : Except Stop State := hidSend .kb (kbReport s) stage k s

/-- The same from the `yield` of its wait. -/
def kbResume (stage start : Nat) (k : State → State) (s : State) : Except Stop State :=
  hidResume .kb (kbReport s) stage start k s

/-- KB_SEND_NOW (R187). -/
def execKbSendNow (s : State) : StepOutcome :=
  match s.phase with
  | .idle => conclude s (kbSend 1 finishVoid s)
  | .hidWait 1 start => conclude s (kbResume 1 start finishVoid s)
  | _ => .fault .phaseMismatch

/-- The test of KB_RELEASE_ALL: some key or the modifier is pressed; `kb[1]` is not looked at (R188). -/
def kbPressed (kb : Vector Byte 8) : Bool :=
  kb[0] != 0 || kb[2] != 0 || kb[3] != 0 || kb[4] != 0 || kb[5] != 0 || kb[6] != 0 || kb[7] != 0

/-- KB_RELEASE_ALL (R188). -/
def execKbReleaseAll (s : State) : StepOutcome :=
  match s.phase with
  | .idle =>
    if kbPressed s.kb then conclude s (kbSend 1 finishVoid { s with kb := Vector.replicate 8 0 })
    else conclude s (.ok (complete 0 s))
  | .hidWait 1 start => conclude s (kbResume 1 start finishVoid s)
  | _ => .fault .phaseMismatch

/-- KB_TYPE (R189): modifier down, key down, key up, modifier up, with a `yield` after each send but the last. -/
def execKbType (mod key : Byte) (s : State) : StepOutcome :=
  match s.phase with
  | .idle => conclude s (kbSend 1 (yieldAfter 1) (setKb 0 mod s))
  | .hidWait 1 start => conclude s (kbResume 1 start (yieldAfter 1) s)
  | .hidYield 1 => conclude s (kbSend 2 (yieldAfter 2) (setKb 2 key s))
  | .hidWait 2 start => conclude s (kbResume 2 start (yieldAfter 2) s)
  | .hidYield 2 => conclude s (kbSend 3 (yieldAfter 3) (setKb 2 0 s))
  | .hidWait 3 start => conclude s (kbResume 3 start (yieldAfter 3) s)
  | .hidYield 3 => conclude s (kbSend 4 finishVoid (setKb 0 0 s))
  | .hidWait 4 start => conclude s (kbResume 4 start finishVoid s)
  | _ => .fault .phaseMismatch

end Sys2Proof.Machine
end

