-- ==== Sys2Proof/Machine/Mouse.lean ====
section
/-! DEFINITION. The mouse commands (43_hid.md section 3). -/

namespace Sys2Proof.Machine

/-- `msButtons <- b`. -/
def setButtons (b : Byte) (s : State) : State := { s with msButtons := b }

/-- `HidSend(MS, [msButtons, 0, 0, 0, 0])` from its first line. -/
def msSend (stage : Nat) (k : State → State) (s : State) : Except Stop State := hidSend .ms (msButtonReport s) stage k s

/-- The same from the `yield` of its wait. -/
def msResume (stage start : Nat) (k : State → State) (s : State) : Except Stop State :=
  hidResume .ms (msButtonReport s) stage start k s

/-- The report of MS_MOVE: the held buttons and the clamped deltas (R192). -/
def moveReport (x y wheel horiz : Byte) (s : State) : List Byte :=
  msReport s (clampDelta x) (clampDelta y) (clampDelta wheel) (clampDelta horiz)

/-- MS_MOVE (R192). -/
def execMsMove (x y wheel horiz : Byte) (s : State) : StepOutcome :=
  match s.phase with
  | .idle => conclude s (hidSend .ms (moveReport x y wheel horiz s) 1 finishVoid s)
  | .hidWait 1 start => conclude s (hidResume .ms (moveReport x y wheel horiz s) 1 start finishVoid s)
  | _ => .fault .phaseMismatch

/-- Set the mask to `new` and report it only if it changed (R193, R194). -/
def changeButtons (new : Byte) (s : State) : StepOutcome :=
  match s.phase with
  | .idle =>
    if new ≠ s.msButtons then conclude s (msSend 1 finishVoid (setButtons new s))
    else conclude s (.ok (complete 0 s))
  | .hidWait 1 start => conclude s (msResume 1 start finishVoid s)
  | _ => .fault .phaseMismatch

/-- MS_PRESS (R193). -/
def execMsPress (b : Byte) (s : State) : StepOutcome := changeButtons (s.msButtons ||| b) s

/-- MS_RELEASE (R194). -/
def execMsRelease (b : Byte) (s : State) : StepOutcome := changeButtons (s.msButtons &&& ~~~b) s

/-- MS_CLICK (R195): a press pulse, a `yield`, a release pulse. -/
def execMsClick (b : Byte) (s : State) : StepOutcome :=
  match s.phase with
  | .idle => conclude s (msSend 1 (yieldAfter 1) (setButtons b s))
  | .hidWait 1 start => conclude s (msResume 1 start (yieldAfter 1) s)
  | .hidYield 1 => conclude s (msSend 2 finishVoid (setButtons 0 s))
  | .hidWait 2 start => conclude s (msResume 2 start finishVoid s)
  | _ => .fault .phaseMismatch

/-- MS_SET_BUTTONS (R196): the mask is set and always reported. -/
def execMsSetButtons (left right middle back forward : Bool) (s : State) : StepOutcome :=
  match s.phase with
  | .idle => conclude s (msSend 1 finishVoid (setButtons (buttonsByte left right middle back forward) s))
  | .hidWait 1 start => conclude s (msResume 1 start finishVoid s)
  | _ => .fault .phaseMismatch

end Sys2Proof.Machine
end

