-- ==== Sys2Proof/Machine/Joystick.lean ====
section
/-! DEFINITION. The joystick commands (43_hid.md section 4). -/

namespace Sys2Proof.Machine

/-- JS_SET_BYTE (R198): an index of 12 or more raises BAD_OPERAND. -/
def execJsSetByte (idx : Word) (v : Byte) (s : State) : StepOutcome :=
  atIdle (fun s =>
    if h : idx.toNat < 12 then .ok (complete 0 { s with js := s.js.set idx.toNat v h })
    else .error (.raise .badOperand)) s

/-- JS_SEND_NOW (R199): the report verbatim. -/
def execJsSendNow (s : State) : StepOutcome :=
  match s.phase with
  | .idle => conclude s (hidSend .js (jsReport s) 1 finishVoid s)
  | .hidWait 1 start => conclude s (hidResume .js (jsReport s) 1 start finishVoid s)
  | _ => .fault .phaseMismatch

end Sys2Proof.Machine
end

