-- ==== Sys2Proof/Machine/System.lean ====
section
/-! DEFINITION. The system and interrupt-control commands (44_system.md). SYS_REBOOT and SYS_RESTART are terminal:
they neither write `RES` nor advance `cix`. -/

namespace Sys2Proof.Machine

/-- SYS_REBOOT (R210). -/
def execSysReboot (s : State) : StepOutcome :=
  atIdle (fun s => .ok
    { s with ie := false, timerRunning := false, usbAttached := false,
             status := .rebooted s.cfg.bootloaderEntry }) s

/-- SYS_RESTART (R211): USB is left alone, and the address is zero. -/
def execSysRestart (s : State) : StepOutcome :=
  atIdle (fun s => .ok { s with ie := false, timerRunning := false, status := .restarted 0 }) s

/-- CS_ENTER (R212): `RES` is the previous `IE`. -/
def execCsEnter (s : State) : StepOutcome :=
  atIdle (fun s => .ok (complete (boolResult s.ie) (csEnter s))) s

/-- CS_EXIT (R213). -/
def execCsExit (saved : Bool) (s : State) : StepOutcome :=
  atIdle (fun s => .ok (complete 0 (csExit saved s))) s

end Sys2Proof.Machine
end

