-- ==== Sys2Proof/Machine/Agents.lean ====
section
/-! DEFINITION. The steps of the agents other than MAIN: TIMER_HW (40_clock.md R100), FRAME_HW and HOST (41_endpoint.md
R135 to R137) and the ISR (60_exceptions.md R226 to R232). A step that is not enabled changes nothing (log 2). -/

namespace Sys2Proof.Machine

/-! ## TIMER_HW (40_clock.md R100, R103) -/

/-- Whether the open MICROS window, if any, has had the one TIMER_HW step it admits (R103, 92_eei_decisions.md D21). -/
def Phase.windowFull : Phase → Bool
  | .microsWindow w => w.ticked
  | .delayFirst w _ => w.ticked
  | .delayWindow w _ _ => w.ticked
  | .idle | .delayYield _ _ | .serWait _ _ _ _ | .hidWait _ _ | .hidYield _ => false

/-- Note a TIMER_HW step in the open MICROS window, if any. -/
def Phase.noteTick : Phase → Phase
  | .microsWindow w => .microsWindow { w with ticked := true }
  | .delayFirst w ms => .delayFirst { w with ticked := true } ms
  | .delayWindow w ms start => .delayWindow { w with ticked := true } ms start
  | .idle => .idle
  | .delayYield ms start => .delayYield ms start
  | .serWait buf size count start => .serWait buf size count start
  | .hidWait stage start => .hidWait stage start
  | .hidYield stage => .hidYield stage

/-- Whether a TIMER_HW step is enabled (R100; R103 admits at most one in a sample's window). -/
def timerHwEnabled (s : State) : Bool :=
  s.timerRunning && decide (s.status = .running) && !s.phase.windowFull

/-- The counter and its overflow flag (R100). -/
def countTick (s : State) : State :=
  if s.tcnt = s.cfg.tcntMax then { s with tcnt := 0, tov := true } else { s with tcnt := s.tcnt + 1 }

/-- The TIMER_HW step (R100). -/
def timerHwStep (s : State) : State := { countTick s with phase := s.phase.noteTick }

/-! ## FRAME_HW (41_endpoint.md R137) -/

/-- Whether a FRAME_HW step is enabled. -/
def frameHwEnabled (s : State) : Bool := s.usbAttached && !s.suspended && decide (s.status = .running)

/-- The FRAME_HW step. -/
def frameHwStep (s : State) : State :=
  { s with frame := addMod s.cfg.frameBits s.frame 1, sofPending := true }

/-! ## The interrupt service steps -/

/-- The timer ISR (60_exceptions.md R226). -/
def timerIsrStep (s : State) : State :=
  isrReturn (onTimerTick (isrEnter { s with tov := false }))

/-- The SOF ISR (R228). `FlushService` selects before its primitive, so it raises no fault (R229). -/
def sofIsrStep (sel : Endpoint) (s : State) : State :=
  match flushService (isrEnter { s with sofPending := false }) with
  | .ok t => usbReturn sel t
  | .error (.raise code) => raiseFault code s
  | .error (.broken _) => s

/-- CONFIGURE empties every endpoint and disarms the flush deadline (R230). -/
def configureEffect (s : State) : State :=
  { s with
    configured := true
    cdcTx := { s.cdcTx with cur := [], released := [] }
    kbEp := { s.kbEp with cur := [], released := [] }
    msEp := { s.msEp with cur := [], released := [] }
    jsEp := { s.jsEp with cur := [], released := [] }
    rx := []
    flushRemaining := none }

/-- The effect of a link event (R230). -/
def linkEffect : LinkEvent → State → State
  | .configure, s => configureEffect s
  | .deconfigure, s => { s with configured := false }
  | .suspend, s => { s with suspended := true }
  | .resume, s => { s with suspended := false }

/-- A link ISR step (R230). -/
def linkIsrStep (event : LinkEvent) (sel : Endpoint) (s : State) : State :=
  usbReturn sel (linkEffect event (isrEnter s))

/-- The line-coding ISR step (R231). -/
def lineIsrStep (line : LineCoding) (sel : Endpoint) (s : State) : State :=
  usbReturn sel { isrEnter s with line := line }

/-! ## HOST (41_endpoint.md R135, R136) -/

/-- The bus lets the host reach the device (R135, R136). -/
def busUp (s : State) : Bool := s.usbAttached && linkUsable s

/-- Whether HOST may poll `e` (R135): in any run status (10_state.md R45). -/
def hostPollEnabled (e : InEp) (s : State) : Bool := busUp s && !(s.inEp e).released.isEmpty

/-- The endpoint after the host has taken its oldest released packet (R135). -/
def InEndpoint.poll (p : InEndpoint) : InEndpoint :=
  match p.released with
  | [] => p
  | packet :: rest => { p with hostLog := p.hostLog ++ [packet], released := rest }

/-- The HOST IN-poll step (R135). -/
def hostPollStep (e : InEp) (s : State) : State := s.setInEp e (s.inEp e).poll

/-- Whether HOST may deliver `p` (R136), while the block is running (10_state.md R45, log 10). -/
def hostDeliverEnabled (p : List Byte) (s : State) : Bool :=
  busUp s && decide (s.status = .running) && decide (s.rx.length < s.cfg.banks.cdcRx) &&
    decide (p.length ≤ s.cfg.size.cdcRx)

/-- The HOST OUT-delivery step (R136). -/
def hostDeliverStep (p : List Byte) (s : State) : State := { s with rx := s.rx ++ [p] }

/-! ## The environment's step -/

/-- Whether a step of another agent is enabled. -/
def envEnabled (step : EnvStep) (s : State) : Bool :=
  match step with
  | .timerHw => timerHwEnabled s
  | .frameHw => frameHwEnabled s
  | .timerIsr => timerIsrEnabled s
  | .sofIsr _ => sofIsrEnabled s
  | .link event _ => linkIsrEnabled event s
  | .lineCoding _ _ => lineIsrEnabled s
  | .hostPoll e => hostPollEnabled e s
  | .hostDeliver p => hostDeliverEnabled p s

/-- The effect of an enabled step of another agent. -/
def envEffect (step : EnvStep) (s : State) : State :=
  match step with
  | .timerHw => timerHwStep s
  | .frameHw => frameHwStep s
  | .timerIsr => timerIsrStep s
  | .sofIsr sel => sofIsrStep sel s
  | .link event sel => linkIsrStep event sel s
  | .lineCoding line sel => lineIsrStep line sel s
  | .hostPoll e => hostPollStep e s
  | .hostDeliver p => hostDeliverStep p s

/-- A scheduled step of another agent: its effect if enabled, else nothing (log 2). -/
def envStep (step : EnvStep) (s : State) : State := if envEnabled step s then envEffect step s else s

end Sys2Proof.Machine
end

