-- ==== Sys2Proof/Machine/Dispatch.lean ====
section
/-! DEFINITION. One arm per command: one MAIN step of the command, at its start when it is idle and from the yield it
stopped at when it is running (30_encoding.md R80). -/

namespace Sys2Proof.Machine

/-- One MAIN step of a command. -/
def exec (i : Instr) (s : State) : Host.Outcome State Fault Refusal :=
  match i with
  | .millis => Sys2Proof.Machine.execMillis s
  | .micros => Sys2Proof.Machine.execMicros s
  | .delay ms => Sys2Proof.Machine.execDelay ms s
  | .delayUs us => Sys2Proof.Machine.execDelayUs us s
  | .serAvailable => Sys2Proof.Machine.execSerAvailable s
  | .serPeek => Sys2Proof.Machine.execSerPeek s
  | .serRead => Sys2Proof.Machine.execSerRead s
  | .serFlush => Sys2Proof.Machine.execSerFlush s
  | .serWrite buf size => Sys2Proof.Machine.execSerWrite buf size s
  | .serSendNow => Sys2Proof.Machine.execSerSendNow s
  | .serBaud => Sys2Proof.Machine.execSerBaud s
  | .serStopbits => Sys2Proof.Machine.execSerStopbits s
  | .serParitytype => Sys2Proof.Machine.execSerParitytype s
  | .serNumbits => Sys2Proof.Machine.execSerNumbits s
  | .serDtr => Sys2Proof.Machine.execSerDtr s
  | .serRts => Sys2Proof.Machine.execSerRts s
  | .serReady => Sys2Proof.Machine.execSerReady s
  | .serGetWriteError => Sys2Proof.Machine.execSerGetWriteError s
  | .kbSetModifier v => Sys2Proof.Machine.execKbSetModifier v s
  | .kbSetKey1 v => Sys2Proof.Machine.execKbSetKey1 v s
  | .kbSetKey2 v => Sys2Proof.Machine.execKbSetKey2 v s
  | .kbSetKey3 v => Sys2Proof.Machine.execKbSetKey3 v s
  | .kbSetKey4 v => Sys2Proof.Machine.execKbSetKey4 v s
  | .kbSetKey5 v => Sys2Proof.Machine.execKbSetKey5 v s
  | .kbSetKey6 v => Sys2Proof.Machine.execKbSetKey6 v s
  | .kbSendNow => Sys2Proof.Machine.execKbSendNow s
  | .kbReleaseAll => Sys2Proof.Machine.execKbReleaseAll s
  | .kbType mod key => Sys2Proof.Machine.execKbType mod key s
  | .msMove x y wheel horiz => Sys2Proof.Machine.execMsMove x y wheel horiz s
  | .msPress b => Sys2Proof.Machine.execMsPress b s
  | .msRelease b => Sys2Proof.Machine.execMsRelease b s
  | .msClick b => Sys2Proof.Machine.execMsClick b s
  | .msSetButtons left right middle back forward => Sys2Proof.Machine.execMsSetButtons left right middle back forward s
  | .jsSetByte idx v => Sys2Proof.Machine.execJsSetByte idx v s
  | .jsSendNow => Sys2Proof.Machine.execJsSendNow s
  | .sysReboot => Sys2Proof.Machine.execSysReboot s
  | .sysRestart => Sys2Proof.Machine.execSysRestart s
  | .csEnter => Sys2Proof.Machine.execCsEnter s
  | .csExit saved => Sys2Proof.Machine.execCsExit saved s

end Sys2Proof.Machine
end

