-- ==== Sys2Proof/Machine/Main.lean ====
section
/-! DEFINITION. The MAIN agent: fetching, latching and decoding the command at `prog[cix]`, and one MAIN step
(30_encoding.md R80); and placing a command where MAIN fetches its next one. -/

namespace Sys2Proof.Machine

/-- `(CMD, ARG0, ARG1) <- c` (R80). -/
def latch (c : Command) (s : State) : State := { s with cmd := c.cmd, arg0 := c.arg0, arg1 := c.arg1 }

/-- The command at `prog[cix]`, none at the end of the stream (10_state.md R21). -/
def fetch (s : State) : Option Command := s.prog[s.cix]?

/-- Whether MAIN has a step: boot, or a command (R80, 70_reset_and_hazards.md R262). -/
def mainEnabled (s : State) : Bool := decide (s.status = .running) && (!s.booted || decide (s.cix < s.prog.length))

/-- MAIN's step of the command `c` (R80): start it when it is idle, else continue it. A reserved `CMD` raises
ILLEGAL_CMD at the start, with the registers latched and nothing else changed (R84, 60_exceptions.md R221, log 15). -/
def runCommand (c : Command) (s : State) : StepOutcome :=
  if s.phase = .idle then
    match decode c with
    | .ok i => exec i (latch c s)
    | .error _ => .next (raiseFault .illegalCmd (latch c s))
  else
    match decode c with
    | .ok i => exec i s
    | .error _ => .fault .phaseMismatch

/-- One MAIN step. The first one after reset is boot (R262, log 4). -/
def mainStep (s : State) : StepOutcome :=
  match s.status with
  | .running =>
    if s.booted then
      match fetch s with
      | some c => runCommand c s
      | none => .fault .streamEnd
    else
      .next (boot s)
  | status => .fault (.halted status)

/-- A scheduled MAIN step: dropped when MAIN has none (log 2). -/
def mainScheduled (s : State) : StepOutcome := if mainEnabled s then mainStep s else .next s

/-- The stream with `c` at position `n` and every other position as it was; a position past the end, which no run
reaches, is first made by padding. -/
def placeAt (prog : List Command) (n : Nat) (c : Command) : List Command :=
  prog.take n ++ List.replicate (n - prog.length) c ++ c :: prog.drop (n + 1)

/-- The state in which MAIN's next step starts the command `c`: booted, running, idle, `c` at `prog[cix]`, and MAIN
scheduled next (log 3). -/
def placeNext (c : Command) (s : State) : State :=
  let s := if s.booted then s else boot s
  { s with
    status := .running
    phase := .idle
    prog := placeAt s.prog s.cix c
    sched := .main :: s.sched }

end Sys2Proof.Machine
end

