-- ==== Sys2Proof/Machine/Step.lean ====
section
/-! DEFINITION. The step of the machine: the agent the schedule names moves, MAIN when it names none
(20_memory.md R66, log 2). -/

namespace Sys2Proof.Machine

/-- One step. -/
def step (s : State) : Host.Outcome State Fault Refusal :=
  match s.sched with
  | [] => mainStep s
  | .main :: rest => mainScheduled { s with sched := rest }
  | .env e :: rest => .next (envStep e { s with sched := rest })

/-- `s` with the command of a table word placed where MAIN fetches its next one (log 3, log 13). -/
def State.withFetchWord (s : State) (nbits w : Nat) : State := placeNext (commandOfTableWord nbits w) s

end Sys2Proof.Machine
end

