-- ==== Sys2Proof/Machine/Assembler.lean ====
section
/-! DEFINITION. The text form of commands (30_encoding.md R86) and the pseudo-instructions (R87). The assembler gives
the triples `prog` holds; it is no part of a step. Where R86 leaves a text open (an operand out of its field's range, the
case of hexadecimal digits, blanks, a sign, an empty line), the choice is the model's: DESIGN CHOICE, log 18. -/

namespace Sys2Proof.Machine.Assembler

/-- The operand list of a mnemonic (R86). -/
inductive Shape where
  /-- No operand. -/
  | none
  /-- One operand, placed in `ARG0`. -/
  | one
  /-- Two operands, placed in `ARG0` and `ARG1`. -/
  | two
  /-- Four operands from -128 to 127, the bytes of `ARG0` (MS_MOVE). -/
  | deltas
  /-- Five operands 0 or 1, bits 0 to 4 of `ARG0` (MS_SET_BUTTONS). -/
  | buttons
  deriving DecidableEq, Repr

/-- One row: the mnemonic, its `CMD` value (R83) and its operand list (R86). -/
structure Row where
  mnemonic : String
  cmd : Byte
  shape : Shape
  deriving DecidableEq, Repr

/-- Clock rows. -/
def clockRows : List Row :=
  [⟨"MILLIS", 0x00, .none⟩, ⟨"MICROS", 0x01, .none⟩, ⟨"DELAY", 0x02, .one⟩, ⟨"DELAY_US", 0x03, .one⟩]

/-- CDC serial rows. -/
def serialRows : List Row :=
  [⟨"SER_AVAILABLE", 0x10, .none⟩, ⟨"SER_PEEK", 0x11, .none⟩, ⟨"SER_READ", 0x12, .none⟩,
   ⟨"SER_FLUSH", 0x13, .none⟩, ⟨"SER_WRITE", 0x14, .two⟩, ⟨"SER_SEND_NOW", 0x15, .none⟩,
   ⟨"SER_BAUD", 0x16, .none⟩, ⟨"SER_STOPBITS", 0x17, .none⟩, ⟨"SER_PARITYTYPE", 0x18, .none⟩,
   ⟨"SER_NUMBITS", 0x19, .none⟩, ⟨"SER_DTR", 0x1A, .none⟩, ⟨"SER_RTS", 0x1B, .none⟩,
   ⟨"SER_READY", 0x1C, .none⟩, ⟨"SER_GET_WRITE_ERROR", 0x1D, .none⟩]

/-- Keyboard rows. -/
def keyboardRows : List Row :=
  [⟨"KB_SET_MODIFIER", 0x20, .one⟩, ⟨"KB_SET_KEY1", 0x21, .one⟩, ⟨"KB_SET_KEY2", 0x22, .one⟩,
   ⟨"KB_SET_KEY3", 0x23, .one⟩, ⟨"KB_SET_KEY4", 0x24, .one⟩, ⟨"KB_SET_KEY5", 0x25, .one⟩,
   ⟨"KB_SET_KEY6", 0x26, .one⟩, ⟨"KB_SEND_NOW", 0x27, .none⟩, ⟨"KB_RELEASE_ALL", 0x28, .none⟩,
   ⟨"KB_TYPE", 0x29, .two⟩]

/-- Mouse, joystick and system rows. -/
def otherRows : List Row :=
  [⟨"MS_MOVE", 0x30, .deltas⟩, ⟨"MS_PRESS", 0x31, .one⟩, ⟨"MS_RELEASE", 0x32, .one⟩,
   ⟨"MS_CLICK", 0x33, .one⟩, ⟨"MS_SET_BUTTONS", 0x34, .buttons⟩,
   ⟨"JS_SET_BYTE", 0x40, .two⟩, ⟨"JS_SEND_NOW", 0x41, .none⟩,
   ⟨"SYS_REBOOT", 0x50, .none⟩, ⟨"SYS_RESTART", 0x51, .none⟩, ⟨"CS_ENTER", 0x52, .none⟩,
   ⟨"CS_EXIT", 0x53, .one⟩]

/-- Every mnemonic of the opcode map (R83). -/
def rows : List Row := clockRows ++ serialRows ++ keyboardRows ++ otherRows

/-- An operand that fills a 32-bit register. R86 gives no range but for the mouse: any number from 0 to `2^32 - 1` is
taken, a negative one or a larger one is not. DESIGN CHOICE, log 18. -/
def word? : Int → Option Word
  | .ofNat n => if n < 2 ^ 32 then some (BitVec.ofNat 32 n) else none
  | .negSucc _ => none

/-- An operand from -128 to 127, `trunc_8`. -/
def delta? (v : Int) : Option Byte := if -128 ≤ v ∧ v ≤ 127 then some (BitVec.ofInt 8 v) else none

/-- An operand 0 or 1. -/
def bit? (v : Int) : Option Bool := if v = 0 then some false else if v = 1 then some true else none

/-- Place the operands (R86, R82); an operand not used is 0. An operand wider than the field R82 reads (a byte, a button
mask, a bit) is placed whole, and the decoder ignores the bits R82 does not name: DESIGN CHOICE, log 18. -/
def place (cmd : Byte) : Shape → List Int → Option Command
  | .none, [] => some ⟨cmd, 0, 0⟩
  | .one, [a] => do
    let a ← word? a
    return ⟨cmd, a, 0⟩
  | .two, [a, b] => do
    let a ← word? a
    let b ← word? b
    return ⟨cmd, a, b⟩
  | .deltas, [x, y, w, h] => do
    let x ← delta? x
    let y ← delta? y
    let w ← delta? w
    let h ← delta? h
    return ⟨cmd, moveArg x y w h, 0⟩
  | .buttons, [l, r, m, b, f] => do
    let l ← bit? l
    let r ← bit? r
    let m ← bit? m
    let b ← bit? b
    let f ← bit? f
    return ⟨cmd, buttonsArg l r m b f, 0⟩
  | _, _ => none

/-- One command from its mnemonic and operands (R86). -/
def assemble (mnemonic : String) (ops : List Int) : Option Command := do
  let row ← rows.find? fun r => r.mnemonic == mnemonic
  place row.cmd row.shape ops

/-- The expansions of the pseudo-instructions (R87), as mnemonics with operands. -/
def expand (mnemonic : String) (ops : List Int) : Option (List (String × List Int)) :=
  if mnemonic == "NOP" then (if ops = [] then some [("DELAY_US", [0])] else none)
  else if mnemonic == "IRQ_OFF" then (if ops = [] then some [("CS_ENTER", [])] else none)
  else if mnemonic == "IRQ_ON" then (if ops = [] then some [("CS_EXIT", [1])] else none)
  else if mnemonic == "KB_TAP" then
    match ops with
    | [k] => some [("KB_SET_KEY1", [k]), ("KB_SEND_NOW", []), ("KB_SET_KEY1", [0]), ("KB_SEND_NOW", [])]
    | _ => none
  else if mnemonic == "SER_PRINT" then
    match ops with
    | [buf, size] => some [("SER_WRITE", [buf, size]), ("SER_SEND_NOW", [])]
    | _ => none
  else some [(mnemonic, ops)]

/-- The commands of one mnemonic with its operands, pseudo-instructions expanded: as many stream positions as the
expansion has commands (R87). -/
def commands (mnemonic : String) (ops : List Int) : Option (List Command) := do
  let parts ← expand mnemonic ops
  parts.mapM fun p => assemble p.1 p.2

/-! ## Lines of text (R86) -/

/-- A decimal or hexadecimal digit, a letter in either case (log 18). -/
def digit? (c : Char) : Option Nat :=
  if '0' ≤ c ∧ c ≤ '9' then some (c.toNat - '0'.toNat)
  else if 'a' ≤ c ∧ c ≤ 'f' then some (c.toNat - 'a'.toNat + 10)
  else if 'A' ≤ c ∧ c ≤ 'F' then some (c.toNat - 'A'.toNat + 10)
  else none

/-- Digits in a base, most significant first, after the value `acc`. -/
def digits (base : Nat) : Nat → List Char → Option Nat
  | acc, [] => some acc
  | acc, c :: cs =>
    match digit? c with
    | some d => if d < base then digits base (acc * base + d) cs else none
    | none => none

/-- A number without sign: decimal, or hexadecimal with `0x`. -/
def natural : List Char → Option Nat
  | '0' :: 'x' :: c :: cs => digits 16 0 (c :: cs)
  | c :: cs => digits 10 0 (c :: cs)
  | [] => none

/-- A number, with `-` before a negative one (log 18). -/
def number : List Char → Option Int
  | '-' :: cs => do
    let n ← natural cs
    return -(n : Int)
  | cs => do
    let n ← natural cs
    return (n : Int)

/-- A space or a tab; around an operand and at either end of a line blanks are dropped (log 18). -/
def blank (c : Char) : Bool := c == ' ' || c == '\t'

/-- Without blanks at either end. -/
def trim (cs : List Char) : List Char := ((cs.dropWhile blank).reverse.dropWhile blank).reverse

/-- The parts of a list between separators. -/
def splitAt (sep : Char) : List Char → List (List Char)
  | [] => [[]]
  | c :: cs =>
    if c == sep then [] :: splitAt sep cs
    else
      match splitAt sep cs with
      | part :: rest => (c :: part) :: rest
      | [] => [[c]]

/-- The commands of one line: a comment is dropped (R86), an empty line gives none (log 18). -/
def line (text : List Char) : Option (List Command) :=
  let body := trim (text.takeWhile (· != ';'))
  if body = [] then some []
  else do
    let mnemonic := body.takeWhile fun c => !blank c
    let rest := trim (body.dropWhile fun c => !blank c)
    let ops ← if rest = [] then pure [] else (splitAt ',' rest).mapM fun p => number (trim p)
    commands (String.ofList mnemonic) ops

/-- A program: one command a line (R86). -/
def program (text : String) : Option (List Command) := do
  let parts ← (splitAt '\n' text.toList).mapM line
  return parts.flatten

end Sys2Proof.Machine.Assembler
end

