-- ==== Sys2Proof/Safety.lean ====
section
/-! DEFINITION. What a good state and a good run are, in the terms claims use: the invariants of 10_state.md R48, runs
and fairness (20_memory.md R66, 70_reset_and_hazards.md R276), the clock's true count (40_clock.md R108), the interrupt
state a command must restore (41_endpoint.md R122), and the packets a byte stream makes (42_cdc_serial.md R158). -/

namespace Sys2Proof.Machine

/-! ## Where a command stands -/

/-- The open sample of a phase between the two steps of `MicrosSample` (40_clock.md R103): in MICROS, and in both samples
of DELAY (R104). -/
def Phase.openSample : Phase → Option Sample
  | .microsWindow w => some w
  | .delayFirst w _ => some w
  | .delayWindow w _ _ => some w
  | .idle | .delayYield _ _ | .serWait _ _ _ _ | .hidWait _ _ | .hidYield _ => none

/-- The command at `prog[cix]`, decoded. -/
def currentInstr (s : State) : Option Instr :=
  match fetch s with
  | some c =>
    match decode c with
    | .ok i => some i
    | .error _ => none
  | none => none

/-- How many HID sends a command makes at most (43_hid.md): the stages its waits and yields may name. -/
def sendCount : Instr → Nat
  | .kbSendNow | .kbReleaseAll => 1
  | .kbType _ _ => 4
  | .msMove _ _ _ _ | .msPress _ | .msRelease _ | .msSetButtons _ _ _ _ _ => 1
  | .msClick _ => 2
  | .jsSendNow => 1
  | .millis | .micros | .delay _ | .delayUs _ => 0
  | .serAvailable | .serPeek | .serRead | .serFlush | .serWrite _ _ | .serSendNow => 0
  | .serBaud | .serStopbits | .serParitytype | .serNumbits | .serDtr | .serRts | .serReady => 0
  | .serGetWriteError => 0
  | .kbSetModifier _ | .kbSetKey1 _ | .kbSetKey2 _ | .kbSetKey3 _ => 0
  | .kbSetKey4 _ | .kbSetKey5 _ | .kbSetKey6 _ => 0
  | .jsSetByte _ _ | .sysReboot | .sysRestart | .csEnter | .csExit _ => 0

/-- An open sample: interrupts are off, and the sampled counter is in its range. -/
def SampleOk (s : State) (w : Sample) : Prop := s.ie = false ∧ w.t ≤ s.cfg.tcntMax

/-- The phase is one of the command's own, with locals in their ranges (10_state.md R21, R22). -/
def PhaseOk (s : State) : Prop :=
  match s.phase with
  | .idle => True
  | .microsWindow w => currentInstr s = some .micros ∧ SampleOk s w
  | .delayFirst w ms => currentInstr s = some (.delay ms) ∧ SampleOk s w
  | .delayYield ms _ => (∃ total, currentInstr s = some (.delay total)) ∧ ms ≠ 0
  | .delayWindow w ms _ => (∃ total, currentInstr s = some (.delay total)) ∧ ms ≠ 0 ∧ SampleOk s w
  | .serWait buf size count start =>
    (∃ b z, currentInstr s = some (.serWrite b z) ∧
      buf = bufAddress s.cfg b + count ∧ count + size = z.toNat) ∧
    0 < size ∧ buf + size ≤ 2 ^ s.cfg.addrBits ∧ start < 2 ^ s.cfg.frameBits
  | .hidWait stage start =>
    (∃ i, currentInstr s = some i ∧ 1 ≤ stage ∧ stage ≤ sendCount i) ∧ start < 2 ^ s.cfg.frameBits
  | .hidYield stage => ∃ i, currentInstr s = some i ∧ 1 ≤ stage ∧ stage < sendCount i

/-! ## HID sends -/

/-- The endpoint a HID command sends on (43_hid.md); commands that send nothing have none. -/
def hidChannel : Instr → Option InEp
  | .kbSendNow | .kbReleaseAll | .kbType _ _ => some .kb
  | .msMove _ _ _ _ | .msPress _ | .msRelease _ | .msClick _ | .msSetButtons _ _ _ _ _ => some .ms
  | .jsSendNow => some .js
  | .millis | .micros | .delay _ | .delayUs _ => none
  | .serAvailable | .serPeek | .serRead | .serFlush | .serWrite _ _ | .serSendNow => none
  | .serBaud | .serStopbits | .serParitytype | .serNumbits | .serDtr | .serRts | .serReady => none
  | .serGetWriteError => none
  | .kbSetModifier _ | .kbSetKey1 _ | .kbSetKey2 _ | .kbSetKey3 _ => none
  | .kbSetKey4 _ | .kbSetKey5 _ | .kbSetKey6 _ => none
  | .jsSetByte _ _ | .sysReboot | .sysRestart | .csEnter | .csExit _ => none

/-- The report a waiting HID command holds ready (43_hid.md R200): on the mouse, the deltas of MS_MOVE are its own. -/
def hidReport (i : Instr) (e : InEp) (s : State) : List Byte :=
  match e with
  | .kb => kbReport s
  | .js => jsReport s
  | .ms =>
    match i with
    | .msMove x y wheel horiz => moveReport x y wheel horiz s
    | _ => msButtonReport s
  | .cdcTx => []

/-- What follows a HID command's send number `stage`: the end after its last, else its `yield`. -/
def afterSend (i : Instr) (stage : Nat) (s : State) : State :=
  if stage = sendCount i then { s with res := 0, phase := .idle, cix := s.cix + 1 }
  else { s with phase := .hidYield stage }

/-- The state after a report has been released on `e` (43_hid.md R200): `SEL` names `e`, and the report is the newest
released packet. -/
def hidSent (e : InEp) (report : List Byte) (s : State) : State :=
  ({ s with sel := e.toEndpoint }).setInEp e { s.inEp e with released := (s.inEp e).released ++ [report] }

/-- The three ways `HidSend(e, report)` goes from its first line at `s` (43_hid.md R200, 41_endpoint.md R130), `after`
being what follows it in the command: skipped on an unusable link; waiting on an unwritable endpoint; sent. -/
def HidOutcome (e : InEp) (report : List Byte) (stage : Nat) (after : State → State) (s : State)
    (r : StepOutcome) : Prop :=
  (linkUsable s = false → r = .next (after s)) ∧
  (linkUsable s = true → writable e s = false →
    r = .next { s with sel := e.toEndpoint, phase := .hidWait stage s.frame }) ∧
  (linkUsable s = true → writable e s = true → (s.inEp e).cur = [] → report.length ≤ s.cfg.size.at e →
    report ≠ [] → r = .next (after (hidSent e report s)))

/-! ## The invariants of R48 -/

/-- A packet of an IN endpoint: never empty and no longer than a bank (41_endpoint.md R129); a HID packet is one whole
report (43_hid.md R201). -/
def PacketOk (c : Config) : InEp → List Byte → Prop
  | .cdcTx, p => 1 ≤ p.length ∧ p.length ≤ c.size.cdcTx
  | .kb, p => p.length = kbReportSize
  | .ms, p => p.length = msReportSize
  | .js, p => p.length = jsReportSize

/-- R48 (b), (c) and the packets of one IN endpoint. -/
structure EndpointOk (c : Config) (e : InEp) (p : InEndpoint) : Prop where
  curFits : p.cur.length ≤ c.size.at e
  releasedFits : p.released.length ≤ c.banks.at e
  roomWhileFilling : p.cur ≠ [] → p.released.length < c.banks.at e
  releasedPackets : ∀ packet ∈ p.released, PacketOk c e packet
  takenPackets : ∀ packet ∈ p.hostLog, PacketOk c e packet

/-- The invariant of the machine: R48 (a) to (h), and the ranges of the fields 10_state.md gives a width. -/
structure BlockInv (s : State) : Prop where
  config : s.cfg.WF
  /-- R48 (a). -/
  fraction : s.fractionCount < s.cfg.fractMax
  tcnt : s.tcnt ≤ s.cfg.tcntMax
  frame : s.frame < 2 ^ s.cfg.frameBits
  /-- R48 (b), (c). -/
  endpoints : ∀ e, EndpointOk s.cfg e (s.inEp e)
  rxFits : s.rx.length ≤ s.cfg.banks.cdcRx
  rxBanks : ∀ bank ∈ s.rx, bank.length ≤ s.cfg.size.cdcRx
  /-- R48 (d), between any two MAIN steps. -/
  hidEmpty : s.kbEp.cur = [] ∧ s.msEp.cur = [] ∧ s.jsEp.cur = []
  /-- R48 (e), between any two MAIN steps. -/
  cdcPartial : s.cdcTx.cur.length < s.cfg.size.cdcTx
  /-- R48 (f), (h). -/
  deadline : ∀ k, s.flushRemaining = some k → 1 ≤ k ∧ k ≤ s.cfg.txFlush ∧ s.cdcTx.cur ≠ []
  /-- R48 (g). -/
  buttons : buttonsOk s.msButtons = true
  /-- 43_hid.md R188: the reserved byte is always 0. -/
  kbReserved : s.kb[1] = 0
  /-- Caller memory is in its canonical form, within the address space. -/
  memForm : Memory.wf s.mem
  memRange : ∀ c ∈ s.mem, c.1 < 2 ^ s.cfg.addrBits
  /-- A running command has booted, and its registers hold it (30_encoding.md R80). -/
  latched : s.phase ≠ .idle → s.booted = true ∧ fetch s = some ⟨s.cmd, s.arg0, s.arg1⟩
  phase : PhaseOk s

/-! ## Runs -/

/-- The step of a given agent. -/
def stepBy (a : AgentStep) (s : State) : StepOutcome :=
  match a with
  | .main => mainScheduled s
  | .env e => .next (envStep e s)

/-- The scheduled steps of other agents, one after another. -/
def envSteps (steps : List EnvStep) (s : State) : State := steps.foldl (fun s e => envStep e s) s

/-- How many of the steps, taken one after another from `s`, are enabled FRAME_HW steps (41_endpoint.md R137). -/
def frameCount : List EnvStep → State → Nat
  | [], _ => 0
  | e :: steps, s => (if e = .frameHw ∧ frameHwEnabled s = true then 1 else 0) + frameCount steps (envStep e s)

/-- The states of an infinite run in which agent step `f n` comes at time `n`; a step that stops leaves the state. -/
def trace (f : Nat → AgentStep) (s : State) : Nat → State
  | 0 => s
  | n + 1 =>
    match stepBy (f n) (trace f s n) with
    | .next t => t
    | .fault _ => trace f s n
    | .refused _ => trace f s n

/-- Weak fairness (70_reset_and_hazards.md R276): steps that stay enabled are taken. -/
def WeaklyFair (enabled : State → Bool) (taken : AgentStep → Bool) (f : Nat → AgentStep) (s : State) : Prop :=
  ∀ n, (∀ m, n ≤ m → enabled (trace f s m) = true) → ∃ m, n ≤ m ∧ taken (f m) = true

/-- The fairness of R276: MAIN, TIMER_HW, FRAME_HW, the timer ISR and the SOF ISR; none for HOST, link and line-coding
events. -/
def FairRun (f : Nat → AgentStep) (s : State) : Prop :=
  WeaklyFair mainEnabled (fun a => decide (a = .main)) f s ∧
  WeaklyFair timerHwEnabled (fun a => decide (a = .env .timerHw)) f s ∧
  WeaklyFair frameHwEnabled (fun a => decide (a = .env .frameHw)) f s ∧
  WeaklyFair timerIsrEnabled (fun a => decide (a = .env .timerIsr)) f s ∧
  WeaklyFair sofIsrEnabled (fun a => match a with | .env (.sofIsr _) => true | _ => false) f s

/-! ## The clock -/

/-- The run premise `TICK_SERVICE_BOUND` at one state (70_reset_and_hazards.md R272). -/
def TickServiceBound (s : State) : Prop := ¬ (s.tov = true ∧ s.tcnt = s.cfg.tcntMax)

/-- `n` TIMER_HW steps after boot, no tick lost: the counter holds `n` modulo its width, and the coarse counter with the
pending tick holds the whole ticks (40_clock.md R108). -/
def ClockTracks (n : Nat) (s : State) : Prop :=
  s.tcnt = n % 2 ^ s.cfg.tcntBits ∧
  s.microsCount + (if s.tov then BitVec.ofNat 32 s.cfg.tickUs else 0) =
    BitVec.ofNat 32 (n / 2 ^ s.cfg.tcntBits * s.cfg.tickUs)

/-- How many TIMER_HW steps an agent step takes: 1 for an enabled one. -/
def timerCount (a : AgentStep) (s : State) : Nat :=
  match a with
  | .env .timerHw => if timerHwEnabled s then 1 else 0
  | .env _ => 0
  | .main => 0

/-! ## The interrupt state a command restores -/

/-- The value `IE` has once the command's open critical section, if any, is left (41_endpoint.md R121, R122). -/
def commandIe (s : State) : Bool :=
  match s.phase with
  | .microsWindow w => w.saved
  | .delayFirst w _ => w.saved
  | .delayWindow w _ _ => w.saved
  | .idle | .delayYield _ _ | .serWait _ _ _ _ | .hidWait _ _ | .hidYield _ => s.ie

/-- The four commands that change `IE` (44_system.md R214). -/
def changesIe : Instr → Bool
  | .sysReboot | .sysRestart | .csEnter | .csExit _ => true
  | .millis | .micros | .delay _ | .delayUs _ => false
  | .serAvailable | .serPeek | .serRead | .serFlush | .serWrite _ _ | .serSendNow => false
  | .serBaud | .serStopbits | .serParitytype | .serNumbits | .serDtr | .serRts | .serReady => false
  | .serGetWriteError => false
  | .kbSetModifier _ | .kbSetKey1 _ | .kbSetKey2 _ | .kbSetKey3 _ => false
  | .kbSetKey4 _ | .kbSetKey5 _ | .kbSetKey6 _ | .kbSendNow | .kbReleaseAll | .kbType _ _ => false
  | .msMove _ _ _ _ | .msPress _ | .msRelease _ | .msClick _ | .msSetButtons _ _ _ _ _ => false
  | .jsSetByte _ _ | .jsSendNow => false

/-! ## Byte streams -/

/-- The next byte of the received banks, and the banks after it is taken: empty banks before it are given back, and so
is its own bank when it was the last byte there (42_cdc_serial.md R153). -/
def rxNext : List (List Byte) → Option Byte × List (List Byte)
  | [] => (none, [])
  | [] :: rest => rxNext rest
  | [b] :: rest => (some b, rest)
  | (b :: c :: bank) :: rest => (some b, (c :: bank) :: rest)

/-- The full packets of `size` bytes a stream makes (42_cdc_serial.md R158). -/
def fullPackets (size : Nat) (bs : List Byte) : List (List Byte) :=
  (List.range (bs.length / size)).map fun k => (bs.drop (k * size)).take size

/-- What is left after the full packets. -/
def packetRest (size : Nat) (bs : List Byte) : List Byte := bs.drop (bs.length / size * size)

/-- Every packet of an IN endpoint in order: taken by the host, then released (41_endpoint.md R135). -/
def InEndpoint.packets (p : InEndpoint) : List (List Byte) := p.hostLog ++ p.released

end Sys2Proof.Machine
end

