-- ==== Sys2Proof/Certificates/Slice0/Obligations.lean ====
section
/-! DEFINITION. The statements for the provers. Each docstring names the rule of the spec it formalises. A result
statement is an equation `exec i s = .next t`: it says that the command completes, its result, and its frame, since
every field the record on the right does not name is that of `s`. -/

open Sys2Proof Sys2Proof.Machine

/-! ## Encoding (30_encoding.md) -/

/-- Words written out from R83 and R86: at least one of each unit. -/
def Obligations.SpecWordsDecode : Prop :=
  decode ⟨0x00, 0, 0⟩ = .ok .millis ∧
  decode ⟨0x02, 2, 0⟩ = .ok (.delay 2) ∧
  decode ⟨0x14, 0x00000100, 0x00000046⟩ = .ok (.serWrite 0x100 70) ∧
  decode ⟨0x1D, 0, 0⟩ = .ok .serGetWriteError ∧
  decode ⟨0x21, 0xFFFFFF04, 0⟩ = .ok (.kbSetKey1 0x04) ∧
  decode ⟨0x29, 0x02, 0x04⟩ = .ok (.kbType 0x02 0x04) ∧
  decode ⟨0x30, 0x80FF0180, 0⟩ = .ok (.msMove 0x80 0x01 0xFF 0x80) ∧
  decode ⟨0x31, 0x000000E1, 0⟩ = .ok (.msPress 0x01) ∧
  decode ⟨0x34, 0x00000014, 0⟩ = .ok (.msSetButtons false false true false true) ∧
  decode ⟨0x40, 0x0000000C, 0x00000022⟩ = .ok (.jsSetByte 12 0x22) ∧
  decode ⟨0x53, 0xFFFFFFFE, 0⟩ = .ok (.csExit false)

/-- R81 to R86: decoding an encoded well-formed command gives it back, with every operand. -/
def Obligations.DecodeEncodeAgree : Prop :=
  ∀ i : Instr, i.wf = true → decode (encode i) = .ok i

/-- R82, R83: the opcode map, with each operand taken from the bits R82 names and no other; and what decodes is well formed
and has the `CMD` it was read from, so `CMD` alone selects the command (R81). -/
def Obligations.OpcodeMap : Prop :=
  (∀ a0 a1 : Word,
    decode ⟨0x00, a0, a1⟩ = .ok .millis ∧ decode ⟨0x01, a0, a1⟩ = .ok .micros ∧
    decode ⟨0x02, a0, a1⟩ = .ok (.delay a0) ∧ decode ⟨0x03, a0, a1⟩ = .ok (.delayUs a0) ∧
    decode ⟨0x10, a0, a1⟩ = .ok .serAvailable ∧ decode ⟨0x11, a0, a1⟩ = .ok .serPeek ∧
    decode ⟨0x12, a0, a1⟩ = .ok .serRead ∧ decode ⟨0x13, a0, a1⟩ = .ok .serFlush ∧
    decode ⟨0x14, a0, a1⟩ = .ok (.serWrite a0 a1) ∧ decode ⟨0x15, a0, a1⟩ = .ok .serSendNow ∧
    decode ⟨0x16, a0, a1⟩ = .ok .serBaud ∧ decode ⟨0x17, a0, a1⟩ = .ok .serStopbits ∧
    decode ⟨0x18, a0, a1⟩ = .ok .serParitytype ∧ decode ⟨0x19, a0, a1⟩ = .ok .serNumbits ∧
    decode ⟨0x1A, a0, a1⟩ = .ok .serDtr ∧ decode ⟨0x1B, a0, a1⟩ = .ok .serRts ∧
    decode ⟨0x1C, a0, a1⟩ = .ok .serReady ∧ decode ⟨0x1D, a0, a1⟩ = .ok .serGetWriteError ∧
    decode ⟨0x20, a0, a1⟩ = .ok (.kbSetModifier (a0.extractLsb' 0 8)) ∧
    decode ⟨0x21, a0, a1⟩ = .ok (.kbSetKey1 (a0.extractLsb' 0 8)) ∧
    decode ⟨0x22, a0, a1⟩ = .ok (.kbSetKey2 (a0.extractLsb' 0 8)) ∧
    decode ⟨0x23, a0, a1⟩ = .ok (.kbSetKey3 (a0.extractLsb' 0 8)) ∧
    decode ⟨0x24, a0, a1⟩ = .ok (.kbSetKey4 (a0.extractLsb' 0 8)) ∧
    decode ⟨0x25, a0, a1⟩ = .ok (.kbSetKey5 (a0.extractLsb' 0 8)) ∧
    decode ⟨0x26, a0, a1⟩ = .ok (.kbSetKey6 (a0.extractLsb' 0 8)) ∧
    decode ⟨0x27, a0, a1⟩ = .ok .kbSendNow ∧ decode ⟨0x28, a0, a1⟩ = .ok .kbReleaseAll ∧
    decode ⟨0x29, a0, a1⟩ = .ok (.kbType (a0.extractLsb' 0 8) (a1.extractLsb' 0 8)) ∧
    decode ⟨0x30, a0, a1⟩ = .ok (.msMove (a0.extractLsb' 0 8) (a0.extractLsb' 8 8) (a0.extractLsb' 16 8)
      (a0.extractLsb' 24 8)) ∧
    decode ⟨0x31, a0, a1⟩ = .ok (.msPress (a0.extractLsb' 0 8 &&& 0x1F)) ∧
    decode ⟨0x32, a0, a1⟩ = .ok (.msRelease (a0.extractLsb' 0 8 &&& 0x1F)) ∧
    decode ⟨0x33, a0, a1⟩ = .ok (.msClick (a0.extractLsb' 0 8 &&& 0x1F)) ∧
    decode ⟨0x34, a0, a1⟩ = .ok (.msSetButtons (a0.getLsbD 0) (a0.getLsbD 1) (a0.getLsbD 2) (a0.getLsbD 3)
      (a0.getLsbD 4)) ∧
    decode ⟨0x40, a0, a1⟩ = .ok (.jsSetByte a0 (a1.extractLsb' 0 8)) ∧ decode ⟨0x41, a0, a1⟩ = .ok .jsSendNow ∧
    decode ⟨0x50, a0, a1⟩ = .ok .sysReboot ∧ decode ⟨0x51, a0, a1⟩ = .ok .sysRestart ∧
    decode ⟨0x52, a0, a1⟩ = .ok .csEnter ∧ decode ⟨0x53, a0, a1⟩ = .ok (.csExit (a0.getLsbD 0))) ∧
  ∀ (c : Command) (i : Instr), decode c = .ok i → i.wf = true ∧ i.opcode = c.cmd

/-- R84, R221: the reserved values are exactly those listed, and issuing one raises ILLEGAL_CMD at the start step, with
the command registers latched (log 15) and no other effect, whether MAIN moves unscheduled or scheduled (log 2). -/
def Obligations.ReservedCommandsFault : Prop :=
  ∀ c : Command,
    ((∃ e, decode c = .error e) ↔
      ((0x04 ≤ c.cmd.toNat ∧ c.cmd.toNat ≤ 0x0F) ∨ c.cmd.toNat = 0x1E ∨ c.cmd.toNat = 0x1F ∨
        (0x2A ≤ c.cmd.toNat ∧ c.cmd.toNat ≤ 0x2F) ∨ (0x35 ≤ c.cmd.toNat ∧ c.cmd.toNat ≤ 0x3F) ∨
        (0x42 ≤ c.cmd.toNat ∧ c.cmd.toNat ≤ 0x4F) ∨ (0x54 ≤ c.cmd.toNat ∧ c.cmd.toNat ≤ 0x5F) ∨
        (0x60 ≤ c.cmd.toNat ∧ c.cmd.toNat ≤ 0xFF))) ∧
    ∀ s : State, s.status = .running → s.booted = true → s.phase = .idle → fetch s = some c →
      (∃ e, decode c = .error e) →
      (s.sched = [] →
        step s = .next { s with cmd := c.cmd, arg0 := c.arg0, arg1 := c.arg1, status := .faulted .illegalCmd }) ∧
      (∀ rest, s.sched = .main :: rest →
        step s = .next { s with
          cmd := c.cmd, arg0 := c.arg0, arg1 := c.arg1, status := .faulted .illegalCmd, sched := rest })

/-- R86, R82: MS_MOVE and MS_SET_BUTTONS place their operands as R86 says, for every operand in range, and the decoder
reads them back by R82. -/
def Obligations.AssembledMouseOperands : Prop :=
  (∀ x y w h : Int, -128 ≤ x → x ≤ 127 → -128 ≤ y → y ≤ 127 → -128 ≤ w → w ≤ 127 → -128 ≤ h → h ≤ 127 →
    ∃ c, Assembler.assemble "MS_MOVE" [x, y, w, h] = some c ∧
      decode c = .ok (.msMove (BitVec.ofInt 8 x) (BitVec.ofInt 8 y) (BitVec.ofInt 8 w) (BitVec.ofInt 8 h)) ∧
      c.arg0.toNat = (BitVec.ofInt 8 x).toNat + 2 ^ 8 * (BitVec.ofInt 8 y).toNat +
        2 ^ 16 * (BitVec.ofInt 8 w).toNat + 2 ^ 24 * (BitVec.ofInt 8 h).toNat) ∧
  (∀ l r m b f : Bool,
    ∃ c, Assembler.assemble "MS_SET_BUTTONS" [l.toNat, r.toNat, m.toNat, b.toNat, f.toNat] = some c ∧
      decode c = .ok (.msSetButtons l r m b f) ∧
      c.arg0.toNat = l.toNat + 2 * r.toNat + 4 * m.toNat + 8 * b.toNat + 16 * f.toNat)

/-- R87: the expansions of the five pseudo-instructions, as commands. That an operand of KB_TAP wider than a byte is
accepted and placed whole is the model's choice (log 18). -/
def Obligations.PseudoExpansions : Prop :=
  Assembler.commands "NOP" [] = some [⟨0x03, 0, 0⟩] ∧
  Assembler.commands "IRQ_OFF" [] = some [⟨0x52, 0, 0⟩] ∧
  Assembler.commands "IRQ_ON" [] = some [⟨0x53, 1, 0⟩] ∧
  (∀ k : Word, Assembler.commands "KB_TAP" [(k.toNat : Int)] =
    some [⟨0x21, k, 0⟩, ⟨0x27, 0, 0⟩, ⟨0x21, 0, 0⟩, ⟨0x27, 0, 0⟩]) ∧
  (∀ buf size : Word, Assembler.commands "SER_PRINT" [(buf.toNat : Int), (size.toNat : Int)] =
    some [⟨0x14, buf, size⟩, ⟨0x15, 0, 0⟩])

/-! ## Sequencing (30_encoding.md R80, 00_scope.md R10) -/

/-- R80, R10: a step of a booted, running block runs the decoded command at `prog[cix]`: from its start, with the
registers latched, when it is idle, and from its yield when it is running; a step scheduled for another agent is that
agent's, if enabled. The schedule is the model's own (log 2). -/
def Obligations.StepRunsDecoded : Prop :=
  (∀ (s : State) (c : Command) (i : Instr), s.status = .running → s.booted = true → fetch s = some c →
    decode c = .ok i →
    (s.sched = [] → s.phase = .idle →
      step s = exec i { s with cmd := c.cmd, arg0 := c.arg0, arg1 := c.arg1 }) ∧
    (s.sched = [] → s.phase ≠ .idle → step s = exec i s) ∧
    (∀ rest, s.sched = .main :: rest → s.phase = .idle →
      step s = exec i { s with cmd := c.cmd, arg0 := c.arg0, arg1 := c.arg1, sched := rest }) ∧
    (∀ rest, s.sched = .main :: rest → s.phase ≠ .idle → step s = exec i { s with sched := rest })) ∧
  (∀ (s : State) (e : EnvStep) (rest : List AgentStep), s.sched = .env e :: rest →
    (envEnabled e s = true → step s = .next (envEffect e { s with sched := rest })) ∧
    (envEnabled e s = false → step s = .next { s with sched := rest }))

/-- The placing of a command (log 3, log 13): from every state, after `withFetchWord` the next step runs exactly that
command, on a booted, running, idle block. -/
def Obligations.PlacedWordRuns : Prop :=
  ∀ (s : State) (nbits w : Nat) (i : Instr), decodeTableWord nbits w = some i →
    ∃ u : State, step (s.withFetchWord nbits w) = exec i u ∧ u.status = .running ∧ u.phase = .idle ∧
      u.booted = true ∧ u.cix = s.cix ∧ fetch u = some ⟨u.cmd, u.arg0, u.arg1⟩ ∧ u.sched = s.sched ∧
      (s.booted = true → u.ie = s.ie ∧ u.usbAttached = s.usbAttached ∧ u.timerRunning = s.timerRunning)

/-- R21, R80, R12: `cix` moves by one exactly when a command completes, and only then is `RES` written. -/
def Obligations.CixAdvancesAtCompletion : Prop :=
  ∀ (i : Instr) (s t : State), exec i s = .next t →
    (t.phase = .idle ∧ t.cix = s.cix + 1) ∨ (t.cix = s.cix ∧ t.res = s.res ∧ (t.phase = .idle → t.status ≠ .running))

/-- R61, R43, R21: no step writes caller memory, the command stream or the configuration. A read has no side effect: it
is a function of memory, and a byte the caller wrote is read back with every other byte as it was; the canonical form of
memory is the model's choice (log 6). -/
def Obligations.CallerMemory : Prop :=
  (∀ s t : State, step s = .next t → t.mem = s.mem ∧ t.prog = s.prog ∧ t.cfg = s.cfg) ∧
  ∀ (m : Memory) (a : Nat) (v : Byte), Memory.wf m →
    Memory.wf (m.write a v) ∧ (m.write a v).read a = v ∧ ∀ b, b ≠ a → (m.write a v).read b = m.read b

/-! ## Reset and boot (70_reset_and_hazards.md R260, R262) -/

/-- R260: the reset values, for every configuration and every draw: each field R260 leaves at any value holds its draw,
caller memory and the stream the inputs. The model's own fields hold theirs (log 1, log 2, log 4). The invariants of R48
hold there when the configuration is well formed and the draws are in their ranges, memory in its canonical form
(log 6). -/
def Obligations.ResetState : Prop :=
  ∀ (c : Config) (d : ResetDraws), let s := State.resetWith c d
    (s.cmd = d.cmd ∧ s.arg0 = d.arg0 ∧ s.arg1 = d.arg1 ∧ s.res = d.res ∧ s.frame = d.frame ∧ s.line = d.line ∧
      s.sel = d.sel ∧ s.mem = d.mem ∧ s.prog = d.prog ∧ s.cfg = c ∧ s.sched = d.sched ∧ s.booted = false) ∧
    (s.cix = 0 ∧ s.phase = .idle ∧ s.ie = false ∧ s.microsCount = 0 ∧ s.millisCount = 0 ∧ s.fractionCount = 0 ∧
      s.tcnt = 0 ∧ s.tov = false ∧ s.timerRunning = false ∧ s.configured = false ∧ s.suspended = false ∧
      s.usbAttached = false ∧ s.sofPending = false ∧
      (∀ e, (s.inEp e).cur = [] ∧ (s.inEp e).released = [] ∧ (s.inEp e).hostLog = []) ∧
      s.rx = [] ∧ s.peekByte = none ∧ s.txTimedOutPrev = false ∧ s.flushRemaining = none ∧ s.writeError = false ∧
      s.kb.toList = [0, 0, 0, 0, 0, 0, 0, 0] ∧ s.msButtons = 0 ∧
      s.js.toList = [0, 0, 0, 0, 0, 0, 0, 0, 0, 0, 0, 0] ∧ s.status = .running) ∧
    (c.WF → d.frame < 2 ^ c.frameBits → Memory.wf d.mem → (∀ b ∈ d.mem, b.1 < 2 ^ c.addrBits) → BlockInv s)

/-- The invariant holds at the model's reset state (its draws are the model's choice, log 5; its configuration is the
suggested one, log 1). -/
def Obligations.ResetMeetsInvariant : Prop := BlockInv State.reset

/-- R262: the first MAIN step after reset is boot, one step that starts the timer, attaches the device and enables
interrupts; the link stays unconfigured. That boot is MAIN's first step, unscheduled or scheduled, is the model's choice
(log 4, log 2). -/
def Obligations.BootStep : Prop :=
  ∀ s : State, s.status = .running → s.booted = false →
    (s.sched = [] →
      step s = .next { s with timerRunning := true, usbAttached := true, ie := true, booted := true }) ∧
    (∀ rest, s.sched = .main :: rest →
      step s = .next { s with timerRunning := true, usbAttached := true, ie := true, booted := true, sched := rest })

/-! ## Clock (40_clock.md) -/

/-- R102 and R105: MILLIS returns `millisCount`, DELAY_US has no state effect; each is one step. -/
def Obligations.MillisAndDelayUs : Prop :=
  ∀ s : State, s.phase = .idle →
    (∀ a0 a1, decode ⟨0x00, a0, a1⟩ = .ok .millis ∧ decode ⟨0x03, a0, a1⟩ = .ok (.delayUs a0)) ∧
    exec .millis s = .next { s with res := s.millisCount, cix := s.cix + 1 } ∧
    ∀ us, exec (.delayUs us) s = .next { s with res := 0, cix := s.cix + 1 }

/-- R103, R104: the two steps of MICROS; and in the window of every sample, of MICROS and of both samples of DELAY, no ISR
step can come and at most one TIMER_HW step, with its effect of R100. -/
def Obligations.MicrosSample : Prop :=
  (∀ s : State, s.phase = .idle →
    exec .micros s = .next { s with ie := false, phase := .microsWindow ⟨s.ie, s.tcnt, false⟩ }) ∧
  (∀ (s : State) (w : Sample), s.phase = .microsWindow w →
    exec .micros s = .next { s with
      ie := w.saved
      res := s.microsCount +
        (if s.tov = true ∧ w.t ≠ 2 ^ s.cfg.tcntBits - 1 then BitVec.ofNat 32 s.cfg.tickUs else 0) +
        BitVec.ofNat 32 (w.t * (s.cfg.tickUs / 2 ^ s.cfg.tcntBits))
      phase := .idle
      cix := s.cix + 1 }) ∧
  (∀ (s : State) (w : Sample) (window : Sample → Phase),
    (window = .microsWindow ∨ (∃ ms, window = fun w => .delayFirst w ms) ∨
      (∃ ms start, window = fun w => .delayWindow w ms start)) →
    s.phase = window w → s.ie = false →
    envStep .timerIsr s = s ∧ (∀ sel, envStep (.sofIsr sel) s = s) ∧ (∀ ev sel, envStep (.link ev sel) s = s) ∧
    (∀ l sel, envStep (.lineCoding l sel) s = s) ∧
    (w.ticked = true ∨ s.timerRunning = false ∨ s.status ≠ .running → envStep .timerHw s = s) ∧
    (w.ticked = false → s.timerRunning = true → s.status = .running →
      envStep .timerHw s = { s with
        tcnt := if s.tcnt = 2 ^ s.cfg.tcntBits - 1 then 0 else s.tcnt + 1
        tov := if s.tcnt = 2 ^ s.cfg.tcntBits - 1 then true else s.tov
        phase := window { w with ticked := true } }) ∧
    (envStep .frameHw s).phase = s.phase ∧ (∀ e, (envStep (.hostPoll e) s).phase = s.phase) ∧
    (∀ p, (envStep (.hostDeliver p) s).phase = s.phase))

/-- R108: with no tick lost so far and `TICK_SERVICE_BOUND` at the sample, MICROS returns exactly the elapsed time at
the instant `TCNT` was sampled, whatever the other agents do in its window. -/
def Obligations.MicrosExact : Prop :=
  ∀ (s : State) (n : Nat) (steps : List EnvStep), s.cfg.WF → ClockTracks n s → TickServiceBound s →
    s.phase = .idle →
    ∃ t u, exec .micros s = .next t ∧ exec .micros (envSteps steps t) = .next u ∧
      u.res = BitVec.ofNat 32 (n * s.cfg.usPerCount) ∧ u.phase = .idle ∧ u.cix = s.cix + 1 ∧ u.ie = s.ie

/-- R108, R272: no tick lost is kept by every step of every agent from a state that meets `TICK_SERVICE_BOUND`, the count
of TIMER_HW steps growing by one at each; it holds at reset with the count 0. -/
def Obligations.NoTickLostUnderBound : Prop :=
  (∀ c d, ClockTracks 0 (State.resetWith c d)) ∧
  ∀ (a : AgentStep) (s t : State) (n : Nat), s.cfg.WF → ClockTracks n s → TickServiceBound s →
    stepBy a s = .next t → ClockTracks (n + timerCount a s) t

/-- R104: DELAY takes its first sample in two steps, then loops: a yield, a sample in two steps, and a millisecond
counted when at least 1000 have passed; it completes when none is left. -/
def Obligations.DelayLoop : Prop :=
  let sample (w : Sample) (s : State) : Word :=
    s.microsCount +
      (if s.tov = true ∧ w.t ≠ 2 ^ s.cfg.tcntBits - 1 then BitVec.ofNat 32 s.cfg.tickUs else 0) +
      BitVec.ofNat 32 (w.t * (s.cfg.tickUs / 2 ^ s.cfg.tcntBits))
  let head (ms start : Word) (s : State) : State :=
    if ms = 0 then { s with res := 0, phase := .idle, cix := s.cix + 1 } else { s with phase := .delayYield ms start }
  ∀ (s : State) (total : Word),
    (s.phase = .idle → exec (.delay total) s =
      .next { s with ie := false, phase := .delayFirst ⟨s.ie, s.tcnt, false⟩ total }) ∧
    (∀ w ms, s.phase = .delayFirst w ms → exec (.delay total) s =
      .next (head ms (sample w s) { s with ie := w.saved })) ∧
    (∀ ms start, s.phase = .delayYield ms start → exec (.delay total) s =
      .next { s with ie := false, phase := .delayWindow ⟨s.ie, s.tcnt, false⟩ ms start }) ∧
    (∀ w ms start, s.phase = .delayWindow w ms start → 1000 ≤ (sample w s - start).toNat →
      exec (.delay total) s = .next (head (ms - 1) (start + 1000) { s with ie := w.saved })) ∧
    (∀ w ms start, s.phase = .delayWindow w ms start → (sample w s - start).toNat < 1000 →
      exec (.delay total) s = .next (head ms start { s with ie := w.saved }))

/-- R101, R226: an enabled timer ISR clears `TOV`, advances the three counters with the carry, and returns with
interrupts enabled; one that is not enabled changes nothing. -/
def Obligations.TimerIsrTick : Prop :=
  ∀ s : State,
    (s.status = .running → s.ie = true → s.tov = true → s.fractionCount + s.cfg.fractInc < s.cfg.fractMax →
      envStep .timerIsr s = { s with
        tov := false
        microsCount := s.microsCount + BitVec.ofNat 32 s.cfg.tickUs
        millisCount := s.millisCount + BitVec.ofNat 32 s.cfg.millisInc
        fractionCount := s.fractionCount + s.cfg.fractInc }) ∧
    (s.status = .running → s.ie = true → s.tov = true → s.cfg.fractMax ≤ s.fractionCount + s.cfg.fractInc →
      envStep .timerIsr s = { s with
        tov := false
        microsCount := s.microsCount + BitVec.ofNat 32 s.cfg.tickUs
        millisCount := s.millisCount + BitVec.ofNat 32 s.cfg.millisInc + 1
        fractionCount := s.fractionCount + s.cfg.fractInc - s.cfg.fractMax }) ∧
    (s.status ≠ .running ∨ s.ie = false ∨ s.tov = false → envStep .timerIsr s = s)

/-- R107: the counters after `n` runs of the tick handler. -/
def Obligations.CounterLaw : Prop :=
  (∀ (s : State) (n : Nat), s.cfg.WF → s.fractionCount < s.cfg.fractMax →
    (onTimerTick^[n] s).microsCount = s.microsCount + BitVec.ofNat 32 (n * s.cfg.tickUs) ∧
    (onTimerTick^[n] s).millisCount = s.millisCount +
      BitVec.ofNat 32 (n * s.cfg.millisInc + (s.fractionCount + n * s.cfg.fractInc) / s.cfg.fractMax) ∧
    (onTimerTick^[n] s).fractionCount = (s.fractionCount + n * s.cfg.fractInc) % s.cfg.fractMax) ∧
  ∀ d : ResetDraws,
    (onTimerTick^[1000] (State.resetWith Config.suggested d)).millisCount = 1024 ∧
    (onTimerTick^[1000] (State.resetWith Config.suggested d)).microsCount = 1024000 ∧
    (onTimerTick^[125] (State.resetWith Config.suggested d)).millisCount = 128

/-- R110: under the exactness equation `millisCount` is the whole number of true milliseconds; one tick adds
`MILLIS_INC` or one more; with `SCENARIO_1MS` every tick adds exactly 1. -/
def Obligations.MillisecondLaw : Prop :=
  (∀ (s : State) (n : Nat), s.cfg.WF → s.cfg.Exact → s.millisCount = 0 → s.fractionCount = 0 →
    n * s.cfg.tickUs < 2 ^ 32 → (onTimerTick^[n] s).millisCount.toNat = n * s.cfg.tickUs / 1000) ∧
  (∀ s : State, (onTimerTick s).millisCount = s.millisCount + BitVec.ofNat 32 s.cfg.millisInc ∨
    (onTimerTick s).millisCount = s.millisCount + BitVec.ofNat 32 s.cfg.millisInc + 1) ∧
  (∀ s : State, s.cfg = Config.scenario1ms → s.fractionCount < s.cfg.fractMax →
    (onTimerTick s).millisCount = s.millisCount + 1)

/-- R100, R271: the TIMER_HW step at every phase that is no open sample (in one, MicrosSample says what it does); and an overflow that finds `TOV` already 1 is lost: the
service that follows counts one tick, as it would have without that overflow. -/
def Obligations.TimerHwStep : Prop :=
  ∀ s : State, s.phase.openSample = none →
    (s.timerRunning = true → s.status = .running → s.tcnt = 2 ^ s.cfg.tcntBits - 1 →
      envStep .timerHw s = { s with tcnt := 0, tov := true }) ∧
    (s.timerRunning = true → s.status = .running → s.tcnt ≠ 2 ^ s.cfg.tcntBits - 1 →
      envStep .timerHw s = { s with tcnt := s.tcnt + 1 }) ∧
    (s.timerRunning = false ∨ s.status ≠ .running → envStep .timerHw s = s) ∧
    (s.timerRunning = true → s.status = .running → s.tov = true → s.tcnt = s.cfg.tcntMax → s.ie = true →
      envStep .timerIsr (envStep .timerHw s) = { envStep .timerIsr s with tcnt := 0 })

/-! ## CDC receive (42_cdc_serial.md section 1) -/

/-- R150: SER_AVAILABLE counts every received bank and the pushback byte, saturating at 255. -/
def Obligations.SerAvailableCount : Prop :=
  (∀ a0 a1, decode ⟨0x10, a0, a1⟩ = .ok .serAvailable) ∧
  ∀ s : State, s.phase = .idle →
    exec .serAvailable s = .next { s with
      sel := .cdcRx
      res := BitVec.ofNat 32 (min ((if s.configured = true ∧ s.suspended = false then (s.rx.map List.length).sum else 0) +
        (if s.peekByte = none then 0 else 1)) 255)
      cix := s.cix + 1 }

/-- R151, R153: SER_PEEK returns the held byte, else takes one into the pushback slot; -1 when there is none. -/
def Obligations.SerPeekResult : Prop :=
  (∀ a0 a1, decode ⟨0x11, a0, a1⟩ = .ok .serPeek) ∧
  ∀ s : State, s.phase = .idle →
    (∀ b, s.peekByte = some b →
      exec .serPeek s = .next { s with res := b.setWidth 32, cix := s.cix + 1 }) ∧
    (s.peekByte = none → linkUsable s = false →
      exec .serPeek s = .next { s with res := 0xFFFFFFFF, cix := s.cix + 1 }) ∧
    (s.peekByte = none → linkUsable s = true → s.rx.flatten = [] →
      exec .serPeek s = .next { s with sel := .cdcRx, rx := [], res := 0xFFFFFFFF, cix := s.cix + 1 }) ∧
    (∀ b rest, s.peekByte = none → linkUsable s = true → rxNext s.rx = (some b, rest) →
      exec .serPeek s = .next { s with
        sel := .cdcRx, rx := rest, peekByte := some b, res := b.setWidth 32, cix := s.cix + 1 })

/-- R152, R153, R132, R133: SER_READ consumes the held byte, else takes one; -1 when there is none. The byte taken is the
first unread one and no other; empty banks before it are given back, and so is its own bank once drained. -/
def Obligations.SerReadResult : Prop :=
  (∀ a0 a1, decode ⟨0x12, a0, a1⟩ = .ok .serRead) ∧
  (∀ s : State, s.phase = .idle →
    (∀ b, s.peekByte = some b →
      exec .serRead s = .next { s with peekByte := none, res := b.setWidth 32, cix := s.cix + 1 }) ∧
    (s.peekByte = none → linkUsable s = false →
      exec .serRead s = .next { s with res := 0xFFFFFFFF, cix := s.cix + 1 }) ∧
    (s.peekByte = none → linkUsable s = true → s.rx.flatten = [] →
      exec .serRead s = .next { s with sel := .cdcRx, rx := [], res := 0xFFFFFFFF, cix := s.cix + 1 }) ∧
    (∀ b rest, s.peekByte = none → linkUsable s = true → rxNext s.rx = (some b, rest) →
      exec .serRead s = .next { s with sel := .cdcRx, rx := rest, res := b.setWidth 32, cix := s.cix + 1 })) ∧
  ∀ rx : List (List Byte),
    (rxNext rx).1 = rx.flatten.head? ∧ (rxNext rx).2.flatten = rx.flatten.tail ∧
    (rxNext rx).2.length ≤ rx.length ∧
    (∀ b bank rest, rx = (b :: bank) :: rest → bank ≠ [] → rxNext rx = (some b, bank :: rest)) ∧
    (∀ b rest, rx = [b] :: rest → rxNext rx = (some b, rest))

/-- R154, R169: SER_FLUSH discards everything received when the link is usable, and the pushback byte always; with a
usable link SER_AVAILABLE then returns 0. -/
def Obligations.SerFlushDiscards : Prop :=
  (∀ a0 a1, decode ⟨0x13, a0, a1⟩ = .ok .serFlush) ∧
  ∀ s : State, s.phase = .idle →
    (linkUsable s = true →
      exec .serFlush s = .next { s with sel := .cdcRx, rx := [], peekByte := none, res := 0, cix := s.cix + 1 } ∧
      ∃ t u, exec .serFlush s = .next t ∧ exec .serAvailable t = .next u ∧ u.res = 0) ∧
    (linkUsable s = false → exec .serFlush s = .next { s with peekByte := none, res := 0, cix := s.cix + 1 })

/-- R168: SER_PEEK then SER_READ return the same byte, and the count falls by exactly 1, if it was at most 255; above
255 both counts may read 255. -/
def Obligations.PeekReadLaw : Prop :=
  ∀ s : State, s.phase = .idle → linkUsable s = true → s.peekByte = none → s.rx.flatten ≠ [] →
    ∃ t u before after, exec .serPeek s = .next t ∧ exec .serRead t = .next u ∧ t.res = u.res ∧
      (∃ b, s.rx.flatten.head? = some b ∧ u.res = b.setWidth 32) ∧
      exec .serAvailable s = .next before ∧ exec .serAvailable u = .next after ∧
      (s.rx.flatten.length ≤ 255 → before.res.toNat = after.res.toNat + 1) ∧
      (255 < s.rx.flatten.length → before.res.toNat = 255 ∧ after.res.toNat = 255)

/-- R160 to R167: the accessors, with their encodings: each reads its field, in one step, and changes nothing else. -/
def Obligations.LinkStatusAccessors : Prop :=
  (∀ a0 a1, decode ⟨0x16, a0, a1⟩ = .ok .serBaud ∧ decode ⟨0x17, a0, a1⟩ = .ok .serStopbits ∧
    decode ⟨0x18, a0, a1⟩ = .ok .serParitytype ∧ decode ⟨0x19, a0, a1⟩ = .ok .serNumbits ∧
    decode ⟨0x1A, a0, a1⟩ = .ok .serDtr ∧ decode ⟨0x1B, a0, a1⟩ = .ok .serRts ∧
    decode ⟨0x1C, a0, a1⟩ = .ok .serReady ∧ decode ⟨0x1D, a0, a1⟩ = .ok .serGetWriteError) ∧
  ∀ s : State, s.phase = .idle →
    exec .serBaud s = .next { s with res := s.line.baud, cix := s.cix + 1 } ∧
    exec .serStopbits s = .next { s with res := s.line.stopbits.setWidth 32, cix := s.cix + 1 } ∧
    exec .serParitytype s = .next { s with res := s.line.paritytype.setWidth 32, cix := s.cix + 1 } ∧
    exec .serNumbits s = .next { s with res := s.line.numbits.setWidth 32, cix := s.cix + 1 } ∧
    exec .serDtr s = .next { s with res := if s.line.dtr then 1 else 0, cix := s.cix + 1 } ∧
    exec .serRts s = .next { s with res := if s.line.rts then 1 else 0, cix := s.cix + 1 } ∧
    exec .serReady s = .next { s with
      res := if (s.configured = true ∧ s.suspended = false) ∧ (s.cfg.readyRequiresDtr = false ∨ s.line.dtr = true)
        then 1 else 0
      cix := s.cix + 1 } ∧
    exec .serGetWriteError s = .next { s with res := if s.writeError then 1 else 0, cix := s.cix + 1 }

/-! ## CDC transmit (42_cdc_serial.md section 2) -/

/-- R155, R61: the paths of SER_WRITE that write nothing: a bad buffer faults before any other effect, an unusable link
and a sticky timeout return 0 at once with `writeError`, and a size of 0 returns 0. -/
def Obligations.SerWriteFailsFast : Prop :=
  ∀ (s : State) (buf size : Word), s.phase = .idle →
    (0 < size.toNat → 2 ^ s.cfg.addrBits < buf.toNat % 2 ^ s.cfg.addrBits + size.toNat →
      exec (.serWrite buf size) s = .next { s with status := .faulted .badBuffer }) ∧
    (size.toNat = 0 ∨ buf.toNat % 2 ^ s.cfg.addrBits + size.toNat ≤ 2 ^ s.cfg.addrBits →
      (linkUsable s = false →
        exec (.serWrite buf size) s = .next { s with writeError := true, res := 0, cix := s.cix + 1 }) ∧
      (linkUsable s = true → s.txTimedOutPrev = true → writable .cdcTx s = false →
        exec (.serWrite buf size) s =
          .next { s with sel := .cdcTx, writeError := true, res := 0, cix := s.cix + 1 }) ∧
      (linkUsable s = true → (s.txTimedOutPrev = false ∨ writable .cdcTx s = true) → size.toNat = 0 →
        exec (.serWrite buf size) s =
          .next { s with sel := .cdcTx, txTimedOutPrev := false, res := 0, cix := s.cix + 1 }))

/-- R158, R155: a SER_WRITE whose bytes fit in the free banks completes in one step. It releases the full packets of the
bytes already in the bank followed by the buffer's, in order, keeps the rest, arms the deadline exactly when there is a
rest, and returns its size. -/
def Obligations.SerWriteFraming : Prop :=
  ∀ (s : State) (buf size : Word),
    let bs := s.cdcTx.cur ++ s.mem.bytes (buf.toNat % 2 ^ s.cfg.addrBits) size.toNat
    let rest := packetRest s.cfg.size.cdcTx bs
    s.phase = .idle → linkUsable s = true → 0 < size.toNat →
    buf.toNat % 2 ^ s.cfg.addrBits + size.toNat ≤ 2 ^ s.cfg.addrBits →
    s.cdcTx.cur.length < s.cfg.size.cdcTx →
    bs.length ≤ (s.cfg.banks.cdcTx - s.cdcTx.released.length) * s.cfg.size.cdcTx →
    exec (.serWrite buf size) s = .next { s with
      sel := .cdcTx
      txTimedOutPrev := false
      cdcTx := { s.cdcTx with cur := rest, released := s.cdcTx.released ++ fullPackets s.cfg.size.cdcTx bs }
      flushRemaining := if rest = [] then none else some s.cfg.txFlush
      res := size
      cix := s.cix + 1 } ∧
    rest.length = bs.length % s.cfg.size.cdcTx ∧
    (fullPackets s.cfg.size.cdcTx bs).length = bs.length / s.cfg.size.cdcTx ∧
    (∀ p ∈ fullPackets s.cfg.size.cdcTx bs, p.length = s.cfg.size.cdcTx) ∧
    (fullPackets s.cfg.size.cdcTx bs).flatten ++ rest = bs

/-- R155, R130: a waiting SER_WRITE at its next step: a lost link, a deadline reached, an endpoint still unwritable (it
goes on waiting with the same start frame), a writable endpoint with room for what is left (it completes from its cursor
and returns its whole count), and one with less room (it fills the free banks and waits anew, from the current frame, with
the cursor, the remaining size and the count advanced). -/
def Obligations.SerWriteWaitOutcomes : Prop :=
  ∀ (s : State) (b z : Word) (buf size count start : Nat), s.phase = .serWait buf size count start →
    let cap := (s.cfg.banks.cdcTx - s.cdcTx.released.length) * s.cfg.size.cdcTx - s.cdcTx.cur.length
    let bs := s.cdcTx.cur ++ s.mem.bytes buf size
    let rest := packetRest s.cfg.size.cdcTx bs
    (linkUsable s = false → exec (.serWrite b z) s = .next { s with
      writeError := true, res := BitVec.ofNat 32 count, phase := .idle, cix := s.cix + 1 }) ∧
    (linkUsable s = true → s.cfg.txTimeout ≤ subMod s.cfg.frameBits s.frame start →
      exec (.serWrite b z) s = .next { s with
        txTimedOutPrev := true, writeError := true, res := BitVec.ofNat 32 count, phase := .idle,
        cix := s.cix + 1 }) ∧
    (linkUsable s = true → subMod s.cfg.frameBits s.frame start < s.cfg.txTimeout → writable .cdcTx s = false →
      exec (.serWrite b z) s = .next { s with sel := .cdcTx }) ∧
    (linkUsable s = true → subMod s.cfg.frameBits s.frame start < s.cfg.txTimeout → 0 < size →
      s.cdcTx.cur.length < s.cfg.size.cdcTx →
      bs.length ≤ (s.cfg.banks.cdcTx - s.cdcTx.released.length) * s.cfg.size.cdcTx →
      exec (.serWrite b z) s = .next { s with
        sel := .cdcTx
        cdcTx := { s.cdcTx with cur := rest, released := s.cdcTx.released ++ fullPackets s.cfg.size.cdcTx bs }
        flushRemaining := if rest = [] then none else some s.cfg.txFlush
        res := BitVec.ofNat 32 (count + size)
        phase := .idle
        cix := s.cix + 1 }) ∧
    (linkUsable s = true → subMod s.cfg.frameBits s.frame start < s.cfg.txTimeout → writable .cdcTx s = true →
      cap < size →
      exec (.serWrite b z) s = .next { s with
        sel := .cdcTx
        cdcTx := { s.cdcTx with
          cur := []
          released := s.cdcTx.released ++ fullPackets s.cfg.size.cdcTx (s.cdcTx.cur ++ s.mem.bytes buf cap) }
        flushRemaining := none
        phase := .serWait (buf + cap) (size - cap) (count + cap) s.frame })

/-- R159: against a stalled host a SER_WRITE accepts `A = min(N, (BANKS - r0)·SIZE - c0)` bytes; with more to write it
waits, and after `TX_TIMEOUT` frames of a usable link it returns `A` with both flags set; the next SER_WRITE returns 0
at once while the endpoint stays unwritable. -/
def Obligations.SerWriteBackpressure : Prop :=
  ∀ (s : State) (buf size : Word),
    let cap := (s.cfg.banks.cdcTx - s.cdcTx.released.length) * s.cfg.size.cdcTx - s.cdcTx.cur.length
    let start := buf.toNat % 2 ^ s.cfg.addrBits
    BlockInv s → s.phase = .idle → linkUsable s = true → s.txTimedOutPrev = false →
    0 < size.toNat → start + size.toNat ≤ 2 ^ s.cfg.addrBits →
    (size.toNat ≤ cap → ∃ t, exec (.serWrite buf size) s = .next t ∧ t.phase = .idle ∧ t.res = size) ∧
    (cap < size.toNat →
      ∃ t, exec (.serWrite buf size) s = .next t ∧
        t.phase = .serWait (start + cap) (size.toNat - cap) cap s.frame ∧ t.ie = s.ie ∧
        t.cdcTx.released.length = s.cfg.banks.cdcTx ∧ t.cdcTx.cur = [] ∧
        t.cdcTx.packets.flatten = s.cdcTx.packets.flatten ++ s.cdcTx.cur ++ s.mem.bytes start cap ∧
        ∀ u : State, u.phase = t.phase → linkUsable u = true →
          u.cfg.txTimeout ≤ subMod u.cfg.frameBits u.frame s.frame →
          ∃ v, exec (.serWrite buf size) u = .next v ∧ v.phase = .idle ∧ v.res = BitVec.ofNat 32 cap ∧
            v.txTimedOutPrev = true ∧ v.writeError = true ∧ v.cdcTx = u.cdcTx ∧
            ∀ buf' size', (buf'.toNat % 2 ^ u.cfg.addrBits + size'.toNat ≤ 2 ^ u.cfg.addrBits) →
              writable .cdcTx v = false →
              ∃ x, exec (.serWrite buf' size') v = .next x ∧ x.phase = .idle ∧ x.res = 0 ∧ x.cdcTx = v.cdcTx)

/-- R155, R46: what SER_WRITE leaves alone at every one of its steps, and that it never clears `writeError`. -/
def Obligations.SerWriteFrame : Prop :=
  ∀ (s t : State) (buf size : Word), exec (.serWrite buf size) s = .next t →
    t.cfg = s.cfg ∧ t.cmd = s.cmd ∧ t.arg0 = s.arg0 ∧ t.arg1 = s.arg1 ∧ t.prog = s.prog ∧ t.ie = s.ie ∧
    t.microsCount = s.microsCount ∧ t.millisCount = s.millisCount ∧ t.fractionCount = s.fractionCount ∧
    t.tcnt = s.tcnt ∧ t.tov = s.tov ∧ t.timerRunning = s.timerRunning ∧ t.configured = s.configured ∧
    t.suspended = s.suspended ∧ t.usbAttached = s.usbAttached ∧ t.frame = s.frame ∧ t.sofPending = s.sofPending ∧
    t.line = s.line ∧ t.kbEp = s.kbEp ∧ t.msEp = s.msEp ∧ t.jsEp = s.jsEp ∧ t.rx = s.rx ∧
    t.peekByte = s.peekByte ∧ t.kb = s.kb ∧ t.msButtons = s.msButtons ∧ t.js = s.js ∧ t.mem = s.mem ∧
    t.booted = s.booted ∧ t.sched = s.sched ∧ t.cdcTx.hostLog = s.cdcTx.hostLog ∧
    (s.writeError = true → t.writeError = true)

/-- R156: SER_SEND_NOW releases the partial packet and disarms the deadline when the link is usable and the deadline
armed; otherwise it does nothing. -/
def Obligations.SerSendNow : Prop :=
  (∀ a0 a1, decode ⟨0x15, a0, a1⟩ = .ok .serSendNow) ∧
  ∀ s : State, s.phase = .idle →
    (linkUsable s = true → s.flushRemaining ≠ none → s.cdcTx.cur ≠ [] →
      exec .serSendNow s = .next { s with
        sel := .cdcTx
        cdcTx := { s.cdcTx with cur := [], released := s.cdcTx.released ++ [s.cdcTx.cur] }
        flushRemaining := none, res := 0, cix := s.cix + 1 }) ∧
    (linkUsable s = true → s.flushRemaining ≠ none → s.cdcTx.cur = [] →
      exec .serSendNow s = .next { s with
        sel := .cdcTx, flushRemaining := none, res := 0, cix := s.cix + 1 }) ∧
    (linkUsable s = false ∨ s.flushRemaining = none →
      exec .serSendNow s = .next { s with res := 0, cix := s.cix + 1 })

/-- R157, R228: an enabled SOF ISR clears its flag, counts the deadline down or releases the partial packet at its end,
and leaves `SEL` at the drawn value. -/
def Obligations.SofIsrService : Prop :=
  ∀ (s : State) (sel : Endpoint), s.status = .running → s.ie = true → s.sofPending = true →
    (s.flushRemaining = none → envStep (.sofIsr sel) s = { s with sofPending := false, sel := sel }) ∧
    (∀ k, s.flushRemaining = some k → 1 < k →
      envStep (.sofIsr sel) s = { s with sofPending := false, sel := sel, flushRemaining := some (k - 1) }) ∧
    (∀ k, s.flushRemaining = some k → k ≤ 1 → s.cdcTx.cur ≠ [] →
      envStep (.sofIsr sel) s = { s with
        sofPending := false, sel := sel, flushRemaining := none
        cdcTx := { s.cdcTx with cur := [], released := s.cdcTx.released ++ [s.cdcTx.cur] } }) ∧
    (∀ k, s.flushRemaining = some k → k ≤ 1 → s.cdcTx.cur = [] →
      envStep (.sofIsr sel) s = { s with sofPending := false, sel := sel, flushRemaining := none })

/-- R157: with the deadline armed at `k`, the partial packet stays through `k - 1` SOF services and is released at the
`k`-th, each service following a frame. -/
def Obligations.FlushDeadlineReleases : Prop :=
  ∀ (s : State) (sel : Endpoint) (k : Nat), s.status = .running → s.ie = true → 1 ≤ k →
    s.flushRemaining = some k → s.cdcTx.cur ≠ [] →
    let service := fun t : State => envStep (.sofIsr sel) { t with sofPending := true }
    (∀ j, j < k → (service^[j] s).flushRemaining = some (k - j) ∧ (service^[j] s).cdcTx = s.cdcTx) ∧
    (service^[k] s).flushRemaining = none ∧ (service^[k] s).cdcTx.cur = [] ∧
    (service^[k] s).cdcTx.released = s.cdcTx.released ++ [s.cdcTx.cur]

/-! ## HID (43_hid.md) -/

/-- R180 to R186: the seven keyboard setters, with their encodings; each writes its own byte and sends nothing. -/
def Obligations.KeyboardSetters : Prop :=
  ∀ (s : State) (a0 a1 : Word), s.phase = .idle →
    let v := a0.extractLsb' 0 8
    (decode ⟨0x20, a0, a1⟩ = .ok (.kbSetModifier v) ∧
      exec (.kbSetModifier v) s = .next { s with kb := s.kb.set 0 v, res := 0, cix := s.cix + 1 }) ∧
    (decode ⟨0x21, a0, a1⟩ = .ok (.kbSetKey1 v) ∧
      exec (.kbSetKey1 v) s = .next { s with kb := s.kb.set 2 v, res := 0, cix := s.cix + 1 }) ∧
    (decode ⟨0x22, a0, a1⟩ = .ok (.kbSetKey2 v) ∧
      exec (.kbSetKey2 v) s = .next { s with kb := s.kb.set 3 v, res := 0, cix := s.cix + 1 }) ∧
    (decode ⟨0x23, a0, a1⟩ = .ok (.kbSetKey3 v) ∧
      exec (.kbSetKey3 v) s = .next { s with kb := s.kb.set 4 v, res := 0, cix := s.cix + 1 }) ∧
    (decode ⟨0x24, a0, a1⟩ = .ok (.kbSetKey4 v) ∧
      exec (.kbSetKey4 v) s = .next { s with kb := s.kb.set 5 v, res := 0, cix := s.cix + 1 }) ∧
    (decode ⟨0x25, a0, a1⟩ = .ok (.kbSetKey5 v) ∧
      exec (.kbSetKey5 v) s = .next { s with kb := s.kb.set 6 v, res := 0, cix := s.cix + 1 }) ∧
    (decode ⟨0x26, a0, a1⟩ = .ok (.kbSetKey6 v) ∧
      exec (.kbSetKey6 v) s = .next { s with kb := s.kb.set 7 v, res := 0, cix := s.cix + 1 })

/-- R187, R192, R196, R199, R200: the commands with one unconditional send, from their start: the report, and its three
outcomes. -/
def Obligations.SingleReportSends : Prop :=
  ∀ s : State, s.phase = .idle →
    let done := fun t : State => { t with res := 0, phase := .idle, cix := t.cix + 1 }
    HidOutcome .kb s.kb.toList 1 done s (exec .kbSendNow s) ∧
    HidOutcome .js s.js.toList 1 done s (exec .jsSendNow s) ∧
    (∀ x y w h : Byte,
      let clamp := fun v : Byte => if v.toInt = -128 then BitVec.ofInt 8 (-127) else v
      HidOutcome .ms [s.msButtons, clamp x, clamp y, clamp w, clamp h] 1 done s (exec (.msMove x y w h) s)) ∧
    (∀ l r m b f : Bool,
      let mask := BitVec.ofNat 8 (l.toNat + 2 * r.toNat + 4 * m.toNat + 8 * b.toNat + 16 * f.toNat)
      HidOutcome .ms [mask, 0, 0, 0, 0] 1 done { s with msButtons := mask } (exec (.msSetButtons l r m b f) s))

/-- R188: KB_RELEASE_ALL clears the report and sends it when a key or the modifier is pressed, and does nothing when
none is. -/
def Obligations.ReleaseAllSends : Prop :=
  ∀ s : State, s.phase = .idle →
    let done := fun t : State => { t with res := 0, phase := .idle, cix := t.cix + 1 }
    ((s.kb[0] ≠ 0 ∨ s.kb[2] ≠ 0 ∨ s.kb[3] ≠ 0 ∨ s.kb[4] ≠ 0 ∨ s.kb[5] ≠ 0 ∨ s.kb[6] ≠ 0 ∨ s.kb[7] ≠ 0) →
      HidOutcome .kb (List.replicate 8 0) 1 done { s with kb := Vector.replicate 8 0 } (exec .kbReleaseAll s)) ∧
    (s.kb[0] = 0 → s.kb[2] = 0 → s.kb[3] = 0 → s.kb[4] = 0 → s.kb[5] = 0 → s.kb[6] = 0 → s.kb[7] = 0 →
      exec .kbReleaseAll s = .next { s with res := 0, cix := s.cix + 1 })

/-- R189: KB_TYPE's four sends: modifier down, key down, key up, modifier up, with a yield after each but the last. -/
def Obligations.TypeSequence : Prop :=
  ∀ (s : State) (mod key : Byte),
    let done := fun t : State => { t with res := 0, phase := .idle, cix := t.cix + 1 }
    (s.phase = .idle →
      HidOutcome .kb (s.kb.set 0 mod).toList 1 (fun t => { t with phase := .hidYield 1 }) { s with kb := s.kb.set 0 mod }
        (exec (.kbType mod key) s)) ∧
    (s.phase = .hidYield 1 →
      HidOutcome .kb (s.kb.set 2 key).toList 2 (fun t => { t with phase := .hidYield 2 }) { s with kb := s.kb.set 2 key }
        (exec (.kbType mod key) s)) ∧
    (s.phase = .hidYield 2 →
      HidOutcome .kb (s.kb.set 2 0).toList 3 (fun t => { t with phase := .hidYield 3 }) { s with kb := s.kb.set 2 0 }
        (exec (.kbType mod key) s)) ∧
    (s.phase = .hidYield 3 →
      HidOutcome .kb (s.kb.set 0 0).toList 4 done { s with kb := s.kb.set 0 0 } (exec (.kbType mod key) s))

/-- R193, R194, R195: MS_PRESS and MS_RELEASE update the mask and report it only if it changed; MS_CLICK reports the mask
`b`, yields, then reports the mask 0. -/
def Obligations.MouseButtons : Prop :=
  ∀ (s : State) (b : Byte),
    let done := fun t : State => { t with res := 0, phase := .idle, cix := t.cix + 1 }
    (s.phase = .idle →
      (s.msButtons ||| b ≠ s.msButtons →
        HidOutcome .ms [s.msButtons ||| b, 0, 0, 0, 0] 1 done { s with msButtons := s.msButtons ||| b }
          (exec (.msPress b) s)) ∧
      (s.msButtons ||| b = s.msButtons → exec (.msPress b) s = .next { s with res := 0, cix := s.cix + 1 }) ∧
      (s.msButtons &&& ~~~b ≠ s.msButtons →
        HidOutcome .ms [s.msButtons &&& ~~~b, 0, 0, 0, 0] 1 done { s with msButtons := s.msButtons &&& ~~~b }
          (exec (.msRelease b) s)) ∧
      (s.msButtons &&& ~~~b = s.msButtons → exec (.msRelease b) s = .next { s with res := 0, cix := s.cix + 1 }) ∧
      HidOutcome .ms [b, 0, 0, 0, 0] 1 (fun t => { t with phase := .hidYield 1 }) { s with msButtons := b }
        (exec (.msClick b) s)) ∧
    (s.phase = .hidYield 1 →
      HidOutcome .ms [0, 0, 0, 0, 0] 2 done { s with msButtons := 0 } (exec (.msClick b) s))

/-- R200, R130: every HID command at its wait: dropped when the link is lost or `HID_TIMEOUT` frames have passed, with no
state left but what the command goes on to; waiting on with the same start frame while unwritable; sent whole once
writable. -/
def Obligations.HidWaitOutcomes : Prop :=
  ∀ (i : Instr) (e : InEp) (s : State) (stage start : Nat), hidChannel i = some e →
    s.phase = .hidWait stage start → 1 ≤ stage → stage ≤ sendCount i →
    (linkUsable s = false → exec i s = .next (afterSend i stage s)) ∧
    (linkUsable s = true → s.cfg.hidTimeout ≤ subMod s.cfg.frameBits s.frame start →
      exec i s = .next (afterSend i stage s)) ∧
    (linkUsable s = true → subMod s.cfg.frameBits s.frame start < s.cfg.hidTimeout → writable e s = false →
      exec i s = .next { s with sel := e.toEndpoint }) ∧
    (linkUsable s = true → subMod s.cfg.frameBits s.frame start < s.cfg.hidTimeout → writable e s = true →
      (s.inEp e).cur = [] → (hidReport i e s).length ≤ s.cfg.size.at e →
      exec i s = .next (afterSend i stage (hidSent e (hidReport i e s) s)))

/-- R140, R130: a wait ends: whatever the other agents do, once the frames counted since its start reach the budget, and
are fewer than the counter's range (R275), the next MAIN step leaves the wait, by a timeout or by a lost link. -/
def Obligations.WaitEndsAtDeadline : Prop :=
  ∀ (s : State) (steps : List EnvStep) (stage start : Nat),
    let frames := subMod s.cfg.frameBits s.frame start + frameCount steps s
    frames < 2 ^ s.cfg.frameBits →
    (∀ (b z : Word) (buf size count : Nat), s.phase = .serWait buf size count start → s.cfg.txTimeout ≤ frames →
      ∃ t, exec (.serWrite b z) (envSteps steps s) = .next t ∧ t.phase = .idle ∧ t.res = BitVec.ofNat 32 count ∧
        t.cix = s.cix + 1 ∧ t.writeError = true) ∧
    (∀ (i : Instr) (e : InEp), hidChannel i = some e → s.phase = .hidWait stage start → 1 ≤ stage →
      stage ≤ sendCount i → s.cfg.hidTimeout ≤ frames →
      exec i (envSteps steps s) = .next (afterSend i stage (envSteps steps s)))

/-- R190: a key tap on a bus whose host keeps up reaches the host as exactly two reports: the make report with the key
and the prior modifier, then the break report with the key cleared. -/
def Obligations.KeyTapLaw : Prop :=
  ∀ (s : State) (k : Byte), BlockInv s → s.phase = .idle → busUp s = true → s.kbEp.released = [] →
    ∃ s1 s2 s3 s4,
      exec (.kbSetKey1 k) s = .next s1 ∧ exec .kbSendNow s1 = .next s2 ∧
      exec (.kbSetKey1 0) (envStep (.hostPoll .kb) s2) = .next s3 ∧ exec .kbSendNow s3 = .next s4 ∧
      (envStep (.hostPoll .kb) s4).kbEp =
        { cur := [], released := [],
          hostLog := s.kbEp.hostLog ++ [(s.kb.set 2 k).toList, (s.kb.set 2 0).toList] } ∧
      s4.phase = .idle ∧ s4.cix = s.cix + 4

/-- R197: from no button held and a host that keeps up, pressing the left button twice reports once, and a click reports
twice. -/
def Obligations.MouseLaws : Prop :=
  ∀ s : State, BlockInv s → s.phase = .idle → busUp s = true → s.msEp.released = [] →
    (s.msButtons = 0 →
      ∃ s1 s2, exec (.msPress 1) s = .next s1 ∧ exec (.msPress 1) (envStep (.hostPoll .ms) s1) = .next s2 ∧
        s2.msEp = { s.msEp with hostLog := s.msEp.hostLog ++ [[1, 0, 0, 0, 0]] } ∧ s2.cix = s.cix + 2) ∧
    (∃ s1 s2, exec (.msClick 1) s = .next s1 ∧ exec (.msClick 1) (envStep (.hostPoll .ms) s1) = .next s2 ∧
      (envStep (.hostPoll .ms) s2).msEp =
        { s.msEp with hostLog := s.msEp.hostLog ++ [[1, 0, 0, 0, 0], [0, 0, 0, 0, 0]] } ∧
      s2.phase = .idle ∧ s2.cix = s.cix + 1)

/-- R198: JS_SET_BYTE writes one byte of the report, with its encoding; an index of 12 or more raises BAD_OPERAND with no
other effect. -/
def Obligations.JoystickByte : Prop :=
  ∀ (s : State) (a0 a1 : Word), s.phase = .idle →
    decode ⟨0x40, a0, a1⟩ = .ok (.jsSetByte a0 (a1.extractLsb' 0 8)) ∧
    (∀ h : a0.toNat < 12, exec (.jsSetByte a0 (a1.extractLsb' 0 8)) s =
      .next { s with js := s.js.set a0.toNat (a1.extractLsb' 0 8) h, res := 0, cix := s.cix + 1 }) ∧
    (12 ≤ a0.toNat → exec (.jsSetByte a0 (a1.extractLsb' 0 8)) s = .next { s with status := .faulted .badOperand })

/-! ## System (44_system.md) -/

/-- R210, R211: the terminal commands, with their encodings: neither writes `RES` nor advances `cix`. After a reboot no
agent has a step; after a restart only HOST polls go on. -/
def Obligations.TerminalCommands : Prop :=
  (∀ a0 a1, decode ⟨0x50, a0, a1⟩ = .ok .sysReboot ∧ decode ⟨0x51, a0, a1⟩ = .ok .sysRestart) ∧
  ∀ s : State, s.phase = .idle →
    let rebooted := { s with
      ie := false, timerRunning := false, usbAttached := false, status := .rebooted s.cfg.bootloaderEntry }
    let restarted := { s with ie := false, timerRunning := false, status := .restarted 0 }
    exec .sysReboot s = .next rebooted ∧ exec .sysRestart s = .next restarted ∧
    mainEnabled rebooted = false ∧ mainEnabled restarted = false ∧
    (∀ e, envStep e rebooted = rebooted) ∧ (∀ e, (∀ p, e ≠ .hostPoll p) → envStep e restarted = restarted) ∧
    (∀ p, busUp s = true → (s.inEp p).released ≠ [] → envEnabled (.hostPoll p) restarted = true)

/-- R212, R213: with their encodings, CS_ENTER returns the previous `IE` and clears it; CS_EXIT restores bit 0 of its operand; nested, the inner
exit leaves interrupts off and the outer one restores them. -/
def Obligations.CriticalSectionCommands : Prop :=
  (∀ a0 a1, decode ⟨0x52, a0, a1⟩ = .ok .csEnter ∧ decode ⟨0x53, a0, a1⟩ = .ok (.csExit (a0.getLsbD 0))) ∧
  ∀ s : State, s.phase = .idle →
    exec .csEnter s = .next { s with ie := false, res := if s.ie then 1 else 0, cix := s.cix + 1 } ∧
    (∀ saved, exec (.csExit saved) s = .next { s with ie := saved, res := 0, cix := s.cix + 1 }) ∧
    ∃ s1 s2 s3 s4, exec .csEnter s = .next s1 ∧ exec .csEnter s1 = .next s2 ∧ s2.res = 0 ∧
      exec (.csExit (s2.res.getLsbD 0)) s2 = .next s3 ∧ s3.ie = false ∧
      exec (.csExit (s1.res.getLsbD 0)) s3 = .next s4 ∧ s4.ie = s.ie

/-- R214, R122: every command but the four leaves `IE` as it found it: at each of its steps `IE`, or the value its open
section captured, is kept, and no step of another agent changes it. -/
def Obligations.CommandsRestoreIe : Prop :=
  (∀ (i : Instr) (s t : State), changesIe i = false → exec i s = .next t → commandIe t = commandIe s) ∧
  ∀ (e : EnvStep) (s : State), commandIe (envStep e s) = commandIe s

/-! ## Faults and the run status (60_exceptions.md) -/

/-- R221, R222, R223: a fault a command raises is one of its own, from its own cause, and changes `status` alone; no
command raises SEL_MISMATCH. -/
def Obligations.FaultsArePrecise : Prop :=
  ∀ (i : Instr) (s t : State) (code : FaultCode), s.status = .running → exec i s = .next t →
    t.status = .faulted code →
    t = { s with status := .faulted code } ∧
    ((code = .badOperand ∧ ∃ idx v, i = .jsSetByte idx v ∧ 12 ≤ idx.toNat) ∨
      (code = .badBuffer ∧ ∃ buf size, i = .serWrite buf size ∧ 0 < size.toNat ∧
        2 ^ s.cfg.addrBits < buf.toNat % 2 ^ s.cfg.addrBits + size.toNat))

/-- R45, R221: once `status` is not RUNNING no step changes it: MAIN has no step (the model's step then answers `halted`,
log 8, and a scheduled MAIN step is dropped, log 2), and no other agent has one, a HOST delivery included (log 10), but a
HOST poll that the bus allows: it moves the oldest released packet to the host's log and changes nothing else. -/
def Obligations.StoppedBlock : Prop :=
  ∀ s : State, s.status ≠ .running →
    (s.sched = [] → step s = .fault (.halted s.status)) ∧
    (∀ rest, s.sched = .main :: rest → step s = .next { s with sched := rest }) ∧
    (∀ e, (∀ p, e ≠ .hostPoll p) → envStep e s = s) ∧
    (∀ e p rest, busUp s = true → (s.inEp e).released = p :: rest →
      envStep (.hostPoll e) s =
        s.setInEp e { s.inEp e with hostLog := (s.inEp e).hostLog ++ [p], released := rest }) ∧
    (∀ e, busUp s = false ∨ (s.inEp e).released = [] → envStep (.hostPoll e) s = s)

/-! ## Other agents (41_endpoint.md section 5, 60_exceptions.md) -/

/-- R135, R136, R137: the HOST and FRAME_HW steps when they are enabled. The status condition on a delivery is the
model's reading (log 10). -/
def Obligations.HostAndFrameSteps : Prop :=
  ∀ s : State,
    (s.usbAttached = true → s.suspended = false → s.status = .running →
      envStep .frameHw s = { s with frame := (s.frame + 1) % 2 ^ s.cfg.frameBits, sofPending := true }) ∧
    (s.usbAttached = false ∨ s.suspended = true ∨ s.status ≠ .running → envStep .frameHw s = s) ∧
    (∀ e p rest, busUp s = true → (s.inEp e).released = p :: rest →
      envStep (.hostPoll e) s =
        s.setInEp e { s.inEp e with hostLog := (s.inEp e).hostLog ++ [p], released := rest }) ∧
    (∀ e, busUp s = false ∨ (s.inEp e).released = [] → envStep (.hostPoll e) s = s) ∧
    (∀ p, busUp s = true → s.status = .running → s.rx.length < s.cfg.banks.cdcRx → p.length ≤ s.cfg.size.cdcRx →
      envStep (.hostDeliver p) s = { s with rx := s.rx ++ [p] }) ∧
    (∀ p, busUp s = false ∨ s.cfg.banks.cdcRx ≤ s.rx.length ∨ s.cfg.size.cdcRx < p.length →
      envStep (.hostDeliver p) s = s)

/-- R230, R231, R232: the link events and the line-coding event: when they are enabled their effects, with `SEL` at the
drawn value; otherwise nothing. No other step, of MAIN or of another agent, writes the link state (R28). -/
def Obligations.LinkEvents : Prop :=
  (∀ (s : State) (sel : Endpoint), s.status = .running → s.ie = true →
    (s.usbAttached = true → s.suspended = false → envStep (.link .configure sel) s = { s with
      configured := true, rx := [], flushRemaining := none, sel := sel
      cdcTx := { s.cdcTx with cur := [], released := [] }
      kbEp := { s.kbEp with cur := [], released := [] }
      msEp := { s.msEp with cur := [], released := [] }
      jsEp := { s.jsEp with cur := [], released := [] } }) ∧
    (s.usbAttached = false ∨ s.suspended = true → envStep (.link .configure sel) s = s) ∧
    (s.usbAttached = true → s.configured = true →
      envStep (.link .deconfigure sel) s = { s with configured := false, sel := sel }) ∧
    (s.usbAttached = false ∨ s.configured = false → envStep (.link .deconfigure sel) s = s) ∧
    (s.usbAttached = true → s.suspended = false →
      envStep (.link .suspend sel) s = { s with suspended := true, sel := sel }) ∧
    (s.usbAttached = false ∨ s.suspended = true → envStep (.link .suspend sel) s = s) ∧
    (s.usbAttached = true → s.suspended = true →
      envStep (.link .resume sel) s = { s with suspended := false, sel := sel }) ∧
    (s.usbAttached = false ∨ s.suspended = false → envStep (.link .resume sel) s = s) ∧
    (∀ l, s.usbAttached = true → s.configured = true → s.suspended = false →
      envStep (.lineCoding l sel) s = { s with line := l, sel := sel }) ∧
    (∀ l, s.usbAttached = false ∨ s.configured = false ∨ s.suspended = true →
      envStep (.lineCoding l sel) s = s)) ∧
  (∀ (e : EnvStep) (s : State), (∀ ev sel, e ≠ .link ev sel) →
    (envStep e s).configured = s.configured ∧ (envStep e s).suspended = s.suspended) ∧
  ∀ (i : Instr) (s t : State), exec i s = .next t → t.configured = s.configured ∧ t.suspended = s.suspended

/-- R225: no ISR step runs while interrupts are disabled, the block is not running, or its source is not pending. -/
def Obligations.IsrOnlyWhenEnabled : Prop :=
  ∀ (s : State) (sel : Endpoint) (ev : LinkEvent) (l : LineCoding),
    (s.ie = false ∨ s.status ≠ .running →
      envStep .timerIsr s = s ∧ envStep (.sofIsr sel) s = s ∧ envStep (.link ev sel) s = s ∧
      envStep (.lineCoding l sel) s = s) ∧
    (s.tov = false → envStep .timerIsr s = s) ∧
    (s.sofPending = false → envStep (.sofIsr sel) s = s) ∧
    (s.usbAttached = false → envStep (.link ev sel) s = s ∧ envStep (.lineCoding l sel) s = s)

/-- R138, R229: what only MAIN writes, no step of another agent changes; and none of them raises a fault. -/
def Obligations.MainOwnsItsState : Prop :=
  ∀ (e : EnvStep) (s : State), let t := envStep e s
    t.peekByte = s.peekByte ∧ t.txTimedOutPrev = s.txTimedOutPrev ∧ t.writeError = s.writeError ∧ t.kb = s.kb ∧
    t.msButtons = s.msButtons ∧ t.js = s.js ∧ t.cmd = s.cmd ∧ t.arg0 = s.arg0 ∧ t.arg1 = s.arg1 ∧ t.res = s.res ∧
    t.cix = s.cix ∧ t.prog = s.prog ∧ t.status = s.status ∧ t.ie = s.ie ∧ (s.phase = .idle ↔ t.phase = .idle)

/-- R67, R135: packets leave an IN endpoint in the order they were released: a MAIN step only adds released packets, a
host poll moves the oldest one, and nothing but a host poll extends the host's log; CONFIGURE alone drops packets. -/
def Obligations.PacketsAreFifo : Prop :=
  (∀ (i : Instr) (s t : State) (e : InEp), exec i s = .next t →
    (t.inEp e).hostLog = (s.inEp e).hostLog ∧ ∃ new, (t.inEp e).released = (s.inEp e).released ++ new) ∧
  (∀ (p e : InEp) (s : State), ((envStep (.hostPoll p) s).inEp e).packets = (s.inEp e).packets ∧
    ∃ new, ((envStep (.hostPoll p) s).inEp e).hostLog = (s.inEp e).hostLog ++ new ∧ new.length ≤ 1) ∧
  (∀ (st : EnvStep) (e : InEp) (s : State), (∀ p, st ≠ .hostPoll p) →
    ((envStep st s).inEp e).hostLog = (s.inEp e).hostLog ∧
    ((∀ sel, st ≠ .link .configure sel) →
      ∃ new, ((envStep st s).inEp e).released = (s.inEp e).released ++ new))

/-! ## Whole-machine rules -/

/-- R48: the invariants, and the ranges of the fields, are kept by every step from every state that meets them. -/
def Obligations.StepKeepsInvariant : Prop :=
  ∀ s t : State, BlockInv s → step s = .next t → BlockInv t

/-- R128, R132, R133, R229: from a state that meets the invariants the step never stops but where the spec gives no step:
at the end of the stream, or on a stopped block with nothing scheduled. The two host faults it then answers are the
model's own (log 8); the stops of log 9, for a meaning at a phase of another command and for a primitive called against
its precondition, are never answered; and it never refuses. -/
def Obligations.StepNeverBreaks : Prop :=
  ∀ s : State, BlockInv s →
    (∀ f, step s = .fault f → s.sched = [] ∧
      ((f = .streamEnd ∧ s.status = .running ∧ s.prog.length ≤ s.cix) ∨
        (f = .halted s.status ∧ s.status ≠ .running))) ∧
    ∀ r, step s ≠ .refused r

/-- R276, R100: on a fair run that goes on, from a state that meets the invariants with the timer running, TIMER_HW steps
again and again: no window of a MICROS sample holds it back for ever. -/
def Obligations.FairTimerTicks : Prop :=
  ∀ (f : Nat → AgentStep) (s : State), BlockInv s → FairRun f s → s.timerRunning = true →
    (∀ n, (trace f s n).status = .running) →
    ∀ n, ∃ m, n ≤ m ∧ f m = .env .timerHw ∧ timerHwEnabled (trace f s m) = true

/-- R125, R232, R278: no command depends on the value `SEL` has between its steps: started or resumed from two states
that differ only in `SEL`, it ends alike, but for `SEL`. -/
def Obligations.SelNeverMatters : Prop :=
  ∀ (i : Instr) (s t : State) (sel : Endpoint), exec i s = .next t →
    ∃ u, exec i { s with sel := sel } = .next u ∧ { u with sel := t.sel } = t
end

