-- ==== Sys2Proof/Laws/State.lean ====
section
/-! SUPPORT. What each named update of State leaves in each field: one lemma a field and update, so that no proof unfolds
a record update. -/

namespace Sys2Proof.Machine

/-! ## complete -/

@[simp] theorem complete_cfg (v : Word) (s : State) : (complete v s).cfg = s.cfg := rfl
@[simp] theorem complete_cmd (v : Word) (s : State) : (complete v s).cmd = s.cmd := rfl
@[simp] theorem complete_arg0 (v : Word) (s : State) : (complete v s).arg0 = s.arg0 := rfl
@[simp] theorem complete_arg1 (v : Word) (s : State) : (complete v s).arg1 = s.arg1 := rfl
@[simp] theorem complete_res (v : Word) (s : State) : (complete v s).res = v := rfl
@[simp] theorem complete_prog (v : Word) (s : State) : (complete v s).prog = s.prog := rfl
@[simp] theorem complete_cix (v : Word) (s : State) : (complete v s).cix = s.cix + 1 := rfl
@[simp] theorem complete_phase (v : Word) (s : State) : (complete v s).phase = Phase.idle := rfl
@[simp] theorem complete_ie (v : Word) (s : State) : (complete v s).ie = s.ie := rfl
@[simp] theorem complete_microsCount (v : Word) (s : State) : (complete v s).microsCount = s.microsCount := rfl
@[simp] theorem complete_millisCount (v : Word) (s : State) : (complete v s).millisCount = s.millisCount := rfl
@[simp] theorem complete_fractionCount (v : Word) (s : State) : (complete v s).fractionCount = s.fractionCount := rfl
@[simp] theorem complete_tcnt (v : Word) (s : State) : (complete v s).tcnt = s.tcnt := rfl
@[simp] theorem complete_tov (v : Word) (s : State) : (complete v s).tov = s.tov := rfl
@[simp] theorem complete_timerRunning (v : Word) (s : State) : (complete v s).timerRunning = s.timerRunning := rfl
@[simp] theorem complete_configured (v : Word) (s : State) : (complete v s).configured = s.configured := rfl
@[simp] theorem complete_suspended (v : Word) (s : State) : (complete v s).suspended = s.suspended := rfl
@[simp] theorem complete_usbAttached (v : Word) (s : State) : (complete v s).usbAttached = s.usbAttached := rfl
@[simp] theorem complete_frame (v : Word) (s : State) : (complete v s).frame = s.frame := rfl
@[simp] theorem complete_sofPending (v : Word) (s : State) : (complete v s).sofPending = s.sofPending := rfl
@[simp] theorem complete_line (v : Word) (s : State) : (complete v s).line = s.line := rfl
@[simp] theorem complete_sel (v : Word) (s : State) : (complete v s).sel = s.sel := rfl
@[simp] theorem complete_cdcTx (v : Word) (s : State) : (complete v s).cdcTx = s.cdcTx := rfl
@[simp] theorem complete_kbEp (v : Word) (s : State) : (complete v s).kbEp = s.kbEp := rfl
@[simp] theorem complete_msEp (v : Word) (s : State) : (complete v s).msEp = s.msEp := rfl
@[simp] theorem complete_jsEp (v : Word) (s : State) : (complete v s).jsEp = s.jsEp := rfl
@[simp] theorem complete_rx (v : Word) (s : State) : (complete v s).rx = s.rx := rfl
@[simp] theorem complete_peekByte (v : Word) (s : State) : (complete v s).peekByte = s.peekByte := rfl
@[simp] theorem complete_txTimedOutPrev (v : Word) (s : State) : (complete v s).txTimedOutPrev = s.txTimedOutPrev := rfl
@[simp] theorem complete_flushRemaining (v : Word) (s : State) : (complete v s).flushRemaining = s.flushRemaining := rfl
@[simp] theorem complete_writeError (v : Word) (s : State) : (complete v s).writeError = s.writeError := rfl
@[simp] theorem complete_kb (v : Word) (s : State) : (complete v s).kb = s.kb := rfl
@[simp] theorem complete_msButtons (v : Word) (s : State) : (complete v s).msButtons = s.msButtons := rfl
@[simp] theorem complete_js (v : Word) (s : State) : (complete v s).js = s.js := rfl
@[simp] theorem complete_mem (v : Word) (s : State) : (complete v s).mem = s.mem := rfl
@[simp] theorem complete_status (v : Word) (s : State) : (complete v s).status = s.status := rfl
@[simp] theorem complete_booted (v : Word) (s : State) : (complete v s).booted = s.booted := rfl
@[simp] theorem complete_sched (v : Word) (s : State) : (complete v s).sched = s.sched := rfl

/-! ## raiseFault -/

@[simp] theorem raiseFault_cfg (c : FaultCode) (s : State) : (raiseFault c s).cfg = s.cfg := rfl
@[simp] theorem raiseFault_cmd (c : FaultCode) (s : State) : (raiseFault c s).cmd = s.cmd := rfl
@[simp] theorem raiseFault_arg0 (c : FaultCode) (s : State) : (raiseFault c s).arg0 = s.arg0 := rfl
@[simp] theorem raiseFault_arg1 (c : FaultCode) (s : State) : (raiseFault c s).arg1 = s.arg1 := rfl
@[simp] theorem raiseFault_res (c : FaultCode) (s : State) : (raiseFault c s).res = s.res := rfl
@[simp] theorem raiseFault_prog (c : FaultCode) (s : State) : (raiseFault c s).prog = s.prog := rfl
@[simp] theorem raiseFault_cix (c : FaultCode) (s : State) : (raiseFault c s).cix = s.cix := rfl
@[simp] theorem raiseFault_phase (c : FaultCode) (s : State) : (raiseFault c s).phase = s.phase := rfl
@[simp] theorem raiseFault_ie (c : FaultCode) (s : State) : (raiseFault c s).ie = s.ie := rfl
@[simp] theorem raiseFault_microsCount (c : FaultCode) (s : State) : (raiseFault c s).microsCount = s.microsCount := rfl
@[simp] theorem raiseFault_millisCount (c : FaultCode) (s : State) : (raiseFault c s).millisCount = s.millisCount := rfl
@[simp] theorem raiseFault_fractionCount (c : FaultCode) (s : State) : (raiseFault c s).fractionCount = s.fractionCount := rfl
@[simp] theorem raiseFault_tcnt (c : FaultCode) (s : State) : (raiseFault c s).tcnt = s.tcnt := rfl
@[simp] theorem raiseFault_tov (c : FaultCode) (s : State) : (raiseFault c s).tov = s.tov := rfl
@[simp] theorem raiseFault_timerRunning (c : FaultCode) (s : State) : (raiseFault c s).timerRunning = s.timerRunning := rfl
@[simp] theorem raiseFault_configured (c : FaultCode) (s : State) : (raiseFault c s).configured = s.configured := rfl
@[simp] theorem raiseFault_suspended (c : FaultCode) (s : State) : (raiseFault c s).suspended = s.suspended := rfl
@[simp] theorem raiseFault_usbAttached (c : FaultCode) (s : State) : (raiseFault c s).usbAttached = s.usbAttached := rfl
@[simp] theorem raiseFault_frame (c : FaultCode) (s : State) : (raiseFault c s).frame = s.frame := rfl
@[simp] theorem raiseFault_sofPending (c : FaultCode) (s : State) : (raiseFault c s).sofPending = s.sofPending := rfl
@[simp] theorem raiseFault_line (c : FaultCode) (s : State) : (raiseFault c s).line = s.line := rfl
@[simp] theorem raiseFault_sel (c : FaultCode) (s : State) : (raiseFault c s).sel = s.sel := rfl
@[simp] theorem raiseFault_cdcTx (c : FaultCode) (s : State) : (raiseFault c s).cdcTx = s.cdcTx := rfl
@[simp] theorem raiseFault_kbEp (c : FaultCode) (s : State) : (raiseFault c s).kbEp = s.kbEp := rfl
@[simp] theorem raiseFault_msEp (c : FaultCode) (s : State) : (raiseFault c s).msEp = s.msEp := rfl
@[simp] theorem raiseFault_jsEp (c : FaultCode) (s : State) : (raiseFault c s).jsEp = s.jsEp := rfl
@[simp] theorem raiseFault_rx (c : FaultCode) (s : State) : (raiseFault c s).rx = s.rx := rfl
@[simp] theorem raiseFault_peekByte (c : FaultCode) (s : State) : (raiseFault c s).peekByte = s.peekByte := rfl
@[simp] theorem raiseFault_txTimedOutPrev (c : FaultCode) (s : State) : (raiseFault c s).txTimedOutPrev = s.txTimedOutPrev := rfl
@[simp] theorem raiseFault_flushRemaining (c : FaultCode) (s : State) : (raiseFault c s).flushRemaining = s.flushRemaining := rfl
@[simp] theorem raiseFault_writeError (c : FaultCode) (s : State) : (raiseFault c s).writeError = s.writeError := rfl
@[simp] theorem raiseFault_kb (c : FaultCode) (s : State) : (raiseFault c s).kb = s.kb := rfl
@[simp] theorem raiseFault_msButtons (c : FaultCode) (s : State) : (raiseFault c s).msButtons = s.msButtons := rfl
@[simp] theorem raiseFault_js (c : FaultCode) (s : State) : (raiseFault c s).js = s.js := rfl
@[simp] theorem raiseFault_mem (c : FaultCode) (s : State) : (raiseFault c s).mem = s.mem := rfl
@[simp] theorem raiseFault_status (c : FaultCode) (s : State) : (raiseFault c s).status = RunStatus.faulted c := rfl
@[simp] theorem raiseFault_booted (c : FaultCode) (s : State) : (raiseFault c s).booted = s.booted := rfl
@[simp] theorem raiseFault_sched (c : FaultCode) (s : State) : (raiseFault c s).sched = s.sched := rfl

/-! ## csEnter -/

@[simp] theorem csEnter_cfg (s : State) : (csEnter s).cfg = s.cfg := rfl
@[simp] theorem csEnter_cmd (s : State) : (csEnter s).cmd = s.cmd := rfl
@[simp] theorem csEnter_arg0 (s : State) : (csEnter s).arg0 = s.arg0 := rfl
@[simp] theorem csEnter_arg1 (s : State) : (csEnter s).arg1 = s.arg1 := rfl
@[simp] theorem csEnter_res (s : State) : (csEnter s).res = s.res := rfl
@[simp] theorem csEnter_prog (s : State) : (csEnter s).prog = s.prog := rfl
@[simp] theorem csEnter_cix (s : State) : (csEnter s).cix = s.cix := rfl
@[simp] theorem csEnter_phase (s : State) : (csEnter s).phase = s.phase := rfl
@[simp] theorem csEnter_ie (s : State) : (csEnter s).ie = false := rfl
@[simp] theorem csEnter_microsCount (s : State) : (csEnter s).microsCount = s.microsCount := rfl
@[simp] theorem csEnter_millisCount (s : State) : (csEnter s).millisCount = s.millisCount := rfl
@[simp] theorem csEnter_fractionCount (s : State) : (csEnter s).fractionCount = s.fractionCount := rfl
@[simp] theorem csEnter_tcnt (s : State) : (csEnter s).tcnt = s.tcnt := rfl
@[simp] theorem csEnter_tov (s : State) : (csEnter s).tov = s.tov := rfl
@[simp] theorem csEnter_timerRunning (s : State) : (csEnter s).timerRunning = s.timerRunning := rfl
@[simp] theorem csEnter_configured (s : State) : (csEnter s).configured = s.configured := rfl
@[simp] theorem csEnter_suspended (s : State) : (csEnter s).suspended = s.suspended := rfl
@[simp] theorem csEnter_usbAttached (s : State) : (csEnter s).usbAttached = s.usbAttached := rfl
@[simp] theorem csEnter_frame (s : State) : (csEnter s).frame = s.frame := rfl
@[simp] theorem csEnter_sofPending (s : State) : (csEnter s).sofPending = s.sofPending := rfl
@[simp] theorem csEnter_line (s : State) : (csEnter s).line = s.line := rfl
@[simp] theorem csEnter_sel (s : State) : (csEnter s).sel = s.sel := rfl
@[simp] theorem csEnter_cdcTx (s : State) : (csEnter s).cdcTx = s.cdcTx := rfl
@[simp] theorem csEnter_kbEp (s : State) : (csEnter s).kbEp = s.kbEp := rfl
@[simp] theorem csEnter_msEp (s : State) : (csEnter s).msEp = s.msEp := rfl
@[simp] theorem csEnter_jsEp (s : State) : (csEnter s).jsEp = s.jsEp := rfl
@[simp] theorem csEnter_rx (s : State) : (csEnter s).rx = s.rx := rfl
@[simp] theorem csEnter_peekByte (s : State) : (csEnter s).peekByte = s.peekByte := rfl
@[simp] theorem csEnter_txTimedOutPrev (s : State) : (csEnter s).txTimedOutPrev = s.txTimedOutPrev := rfl
@[simp] theorem csEnter_flushRemaining (s : State) : (csEnter s).flushRemaining = s.flushRemaining := rfl
@[simp] theorem csEnter_writeError (s : State) : (csEnter s).writeError = s.writeError := rfl
@[simp] theorem csEnter_kb (s : State) : (csEnter s).kb = s.kb := rfl
@[simp] theorem csEnter_msButtons (s : State) : (csEnter s).msButtons = s.msButtons := rfl
@[simp] theorem csEnter_js (s : State) : (csEnter s).js = s.js := rfl
@[simp] theorem csEnter_mem (s : State) : (csEnter s).mem = s.mem := rfl
@[simp] theorem csEnter_status (s : State) : (csEnter s).status = s.status := rfl
@[simp] theorem csEnter_booted (s : State) : (csEnter s).booted = s.booted := rfl
@[simp] theorem csEnter_sched (s : State) : (csEnter s).sched = s.sched := rfl

/-! ## csExit -/

@[simp] theorem csExit_cfg (b : Bool) (s : State) : (csExit b s).cfg = s.cfg := rfl
@[simp] theorem csExit_cmd (b : Bool) (s : State) : (csExit b s).cmd = s.cmd := rfl
@[simp] theorem csExit_arg0 (b : Bool) (s : State) : (csExit b s).arg0 = s.arg0 := rfl
@[simp] theorem csExit_arg1 (b : Bool) (s : State) : (csExit b s).arg1 = s.arg1 := rfl
@[simp] theorem csExit_res (b : Bool) (s : State) : (csExit b s).res = s.res := rfl
@[simp] theorem csExit_prog (b : Bool) (s : State) : (csExit b s).prog = s.prog := rfl
@[simp] theorem csExit_cix (b : Bool) (s : State) : (csExit b s).cix = s.cix := rfl
@[simp] theorem csExit_phase (b : Bool) (s : State) : (csExit b s).phase = s.phase := rfl
@[simp] theorem csExit_ie (b : Bool) (s : State) : (csExit b s).ie = b := rfl
@[simp] theorem csExit_microsCount (b : Bool) (s : State) : (csExit b s).microsCount = s.microsCount := rfl
@[simp] theorem csExit_millisCount (b : Bool) (s : State) : (csExit b s).millisCount = s.millisCount := rfl
@[simp] theorem csExit_fractionCount (b : Bool) (s : State) : (csExit b s).fractionCount = s.fractionCount := rfl
@[simp] theorem csExit_tcnt (b : Bool) (s : State) : (csExit b s).tcnt = s.tcnt := rfl
@[simp] theorem csExit_tov (b : Bool) (s : State) : (csExit b s).tov = s.tov := rfl
@[simp] theorem csExit_timerRunning (b : Bool) (s : State) : (csExit b s).timerRunning = s.timerRunning := rfl
@[simp] theorem csExit_configured (b : Bool) (s : State) : (csExit b s).configured = s.configured := rfl
@[simp] theorem csExit_suspended (b : Bool) (s : State) : (csExit b s).suspended = s.suspended := rfl
@[simp] theorem csExit_usbAttached (b : Bool) (s : State) : (csExit b s).usbAttached = s.usbAttached := rfl
@[simp] theorem csExit_frame (b : Bool) (s : State) : (csExit b s).frame = s.frame := rfl
@[simp] theorem csExit_sofPending (b : Bool) (s : State) : (csExit b s).sofPending = s.sofPending := rfl
@[simp] theorem csExit_line (b : Bool) (s : State) : (csExit b s).line = s.line := rfl
@[simp] theorem csExit_sel (b : Bool) (s : State) : (csExit b s).sel = s.sel := rfl
@[simp] theorem csExit_cdcTx (b : Bool) (s : State) : (csExit b s).cdcTx = s.cdcTx := rfl
@[simp] theorem csExit_kbEp (b : Bool) (s : State) : (csExit b s).kbEp = s.kbEp := rfl
@[simp] theorem csExit_msEp (b : Bool) (s : State) : (csExit b s).msEp = s.msEp := rfl
@[simp] theorem csExit_jsEp (b : Bool) (s : State) : (csExit b s).jsEp = s.jsEp := rfl
@[simp] theorem csExit_rx (b : Bool) (s : State) : (csExit b s).rx = s.rx := rfl
@[simp] theorem csExit_peekByte (b : Bool) (s : State) : (csExit b s).peekByte = s.peekByte := rfl
@[simp] theorem csExit_txTimedOutPrev (b : Bool) (s : State) : (csExit b s).txTimedOutPrev = s.txTimedOutPrev := rfl
@[simp] theorem csExit_flushRemaining (b : Bool) (s : State) : (csExit b s).flushRemaining = s.flushRemaining := rfl
@[simp] theorem csExit_writeError (b : Bool) (s : State) : (csExit b s).writeError = s.writeError := rfl
@[simp] theorem csExit_kb (b : Bool) (s : State) : (csExit b s).kb = s.kb := rfl
@[simp] theorem csExit_msButtons (b : Bool) (s : State) : (csExit b s).msButtons = s.msButtons := rfl
@[simp] theorem csExit_js (b : Bool) (s : State) : (csExit b s).js = s.js := rfl
@[simp] theorem csExit_mem (b : Bool) (s : State) : (csExit b s).mem = s.mem := rfl
@[simp] theorem csExit_status (b : Bool) (s : State) : (csExit b s).status = s.status := rfl
@[simp] theorem csExit_booted (b : Bool) (s : State) : (csExit b s).booted = s.booted := rfl
@[simp] theorem csExit_sched (b : Bool) (s : State) : (csExit b s).sched = s.sched := rfl

/-! ## select -/

@[simp] theorem select_cfg (e : Endpoint) (s : State) : (select e s).cfg = s.cfg := rfl
@[simp] theorem select_cmd (e : Endpoint) (s : State) : (select e s).cmd = s.cmd := rfl
@[simp] theorem select_arg0 (e : Endpoint) (s : State) : (select e s).arg0 = s.arg0 := rfl
@[simp] theorem select_arg1 (e : Endpoint) (s : State) : (select e s).arg1 = s.arg1 := rfl
@[simp] theorem select_res (e : Endpoint) (s : State) : (select e s).res = s.res := rfl
@[simp] theorem select_prog (e : Endpoint) (s : State) : (select e s).prog = s.prog := rfl
@[simp] theorem select_cix (e : Endpoint) (s : State) : (select e s).cix = s.cix := rfl
@[simp] theorem select_phase (e : Endpoint) (s : State) : (select e s).phase = s.phase := rfl
@[simp] theorem select_ie (e : Endpoint) (s : State) : (select e s).ie = s.ie := rfl
@[simp] theorem select_microsCount (e : Endpoint) (s : State) : (select e s).microsCount = s.microsCount := rfl
@[simp] theorem select_millisCount (e : Endpoint) (s : State) : (select e s).millisCount = s.millisCount := rfl
@[simp] theorem select_fractionCount (e : Endpoint) (s : State) : (select e s).fractionCount = s.fractionCount := rfl
@[simp] theorem select_tcnt (e : Endpoint) (s : State) : (select e s).tcnt = s.tcnt := rfl
@[simp] theorem select_tov (e : Endpoint) (s : State) : (select e s).tov = s.tov := rfl
@[simp] theorem select_timerRunning (e : Endpoint) (s : State) : (select e s).timerRunning = s.timerRunning := rfl
@[simp] theorem select_configured (e : Endpoint) (s : State) : (select e s).configured = s.configured := rfl
@[simp] theorem select_suspended (e : Endpoint) (s : State) : (select e s).suspended = s.suspended := rfl
@[simp] theorem select_usbAttached (e : Endpoint) (s : State) : (select e s).usbAttached = s.usbAttached := rfl
@[simp] theorem select_frame (e : Endpoint) (s : State) : (select e s).frame = s.frame := rfl
@[simp] theorem select_sofPending (e : Endpoint) (s : State) : (select e s).sofPending = s.sofPending := rfl
@[simp] theorem select_line (e : Endpoint) (s : State) : (select e s).line = s.line := rfl
@[simp] theorem select_sel (e : Endpoint) (s : State) : (select e s).sel = e := rfl
@[simp] theorem select_cdcTx (e : Endpoint) (s : State) : (select e s).cdcTx = s.cdcTx := rfl
@[simp] theorem select_kbEp (e : Endpoint) (s : State) : (select e s).kbEp = s.kbEp := rfl
@[simp] theorem select_msEp (e : Endpoint) (s : State) : (select e s).msEp = s.msEp := rfl
@[simp] theorem select_jsEp (e : Endpoint) (s : State) : (select e s).jsEp = s.jsEp := rfl
@[simp] theorem select_rx (e : Endpoint) (s : State) : (select e s).rx = s.rx := rfl
@[simp] theorem select_peekByte (e : Endpoint) (s : State) : (select e s).peekByte = s.peekByte := rfl
@[simp] theorem select_txTimedOutPrev (e : Endpoint) (s : State) : (select e s).txTimedOutPrev = s.txTimedOutPrev := rfl
@[simp] theorem select_flushRemaining (e : Endpoint) (s : State) : (select e s).flushRemaining = s.flushRemaining := rfl
@[simp] theorem select_writeError (e : Endpoint) (s : State) : (select e s).writeError = s.writeError := rfl
@[simp] theorem select_kb (e : Endpoint) (s : State) : (select e s).kb = s.kb := rfl
@[simp] theorem select_msButtons (e : Endpoint) (s : State) : (select e s).msButtons = s.msButtons := rfl
@[simp] theorem select_js (e : Endpoint) (s : State) : (select e s).js = s.js := rfl
@[simp] theorem select_mem (e : Endpoint) (s : State) : (select e s).mem = s.mem := rfl
@[simp] theorem select_status (e : Endpoint) (s : State) : (select e s).status = s.status := rfl
@[simp] theorem select_booted (e : Endpoint) (s : State) : (select e s).booted = s.booted := rfl
@[simp] theorem select_sched (e : Endpoint) (s : State) : (select e s).sched = s.sched := rfl

/-! ## latch -/

@[simp] theorem latch_cfg (c : Command) (s : State) : (latch c s).cfg = s.cfg := rfl
@[simp] theorem latch_cmd (c : Command) (s : State) : (latch c s).cmd = c.cmd := rfl
@[simp] theorem latch_arg0 (c : Command) (s : State) : (latch c s).arg0 = c.arg0 := rfl
@[simp] theorem latch_arg1 (c : Command) (s : State) : (latch c s).arg1 = c.arg1 := rfl
@[simp] theorem latch_res (c : Command) (s : State) : (latch c s).res = s.res := rfl
@[simp] theorem latch_prog (c : Command) (s : State) : (latch c s).prog = s.prog := rfl
@[simp] theorem latch_cix (c : Command) (s : State) : (latch c s).cix = s.cix := rfl
@[simp] theorem latch_phase (c : Command) (s : State) : (latch c s).phase = s.phase := rfl
@[simp] theorem latch_ie (c : Command) (s : State) : (latch c s).ie = s.ie := rfl
@[simp] theorem latch_microsCount (c : Command) (s : State) : (latch c s).microsCount = s.microsCount := rfl
@[simp] theorem latch_millisCount (c : Command) (s : State) : (latch c s).millisCount = s.millisCount := rfl
@[simp] theorem latch_fractionCount (c : Command) (s : State) : (latch c s).fractionCount = s.fractionCount := rfl
@[simp] theorem latch_tcnt (c : Command) (s : State) : (latch c s).tcnt = s.tcnt := rfl
@[simp] theorem latch_tov (c : Command) (s : State) : (latch c s).tov = s.tov := rfl
@[simp] theorem latch_timerRunning (c : Command) (s : State) : (latch c s).timerRunning = s.timerRunning := rfl
@[simp] theorem latch_configured (c : Command) (s : State) : (latch c s).configured = s.configured := rfl
@[simp] theorem latch_suspended (c : Command) (s : State) : (latch c s).suspended = s.suspended := rfl
@[simp] theorem latch_usbAttached (c : Command) (s : State) : (latch c s).usbAttached = s.usbAttached := rfl
@[simp] theorem latch_frame (c : Command) (s : State) : (latch c s).frame = s.frame := rfl
@[simp] theorem latch_sofPending (c : Command) (s : State) : (latch c s).sofPending = s.sofPending := rfl
@[simp] theorem latch_line (c : Command) (s : State) : (latch c s).line = s.line := rfl
@[simp] theorem latch_sel (c : Command) (s : State) : (latch c s).sel = s.sel := rfl
@[simp] theorem latch_cdcTx (c : Command) (s : State) : (latch c s).cdcTx = s.cdcTx := rfl
@[simp] theorem latch_kbEp (c : Command) (s : State) : (latch c s).kbEp = s.kbEp := rfl
@[simp] theorem latch_msEp (c : Command) (s : State) : (latch c s).msEp = s.msEp := rfl
@[simp] theorem latch_jsEp (c : Command) (s : State) : (latch c s).jsEp = s.jsEp := rfl
@[simp] theorem latch_rx (c : Command) (s : State) : (latch c s).rx = s.rx := rfl
@[simp] theorem latch_peekByte (c : Command) (s : State) : (latch c s).peekByte = s.peekByte := rfl
@[simp] theorem latch_txTimedOutPrev (c : Command) (s : State) : (latch c s).txTimedOutPrev = s.txTimedOutPrev := rfl
@[simp] theorem latch_flushRemaining (c : Command) (s : State) : (latch c s).flushRemaining = s.flushRemaining := rfl
@[simp] theorem latch_writeError (c : Command) (s : State) : (latch c s).writeError = s.writeError := rfl
@[simp] theorem latch_kb (c : Command) (s : State) : (latch c s).kb = s.kb := rfl
@[simp] theorem latch_msButtons (c : Command) (s : State) : (latch c s).msButtons = s.msButtons := rfl
@[simp] theorem latch_js (c : Command) (s : State) : (latch c s).js = s.js := rfl
@[simp] theorem latch_mem (c : Command) (s : State) : (latch c s).mem = s.mem := rfl
@[simp] theorem latch_status (c : Command) (s : State) : (latch c s).status = s.status := rfl
@[simp] theorem latch_booted (c : Command) (s : State) : (latch c s).booted = s.booted := rfl
@[simp] theorem latch_sched (c : Command) (s : State) : (latch c s).sched = s.sched := rfl

/-! ## boot -/

@[simp] theorem boot_cfg (s : State) : (boot s).cfg = s.cfg := rfl
@[simp] theorem boot_cmd (s : State) : (boot s).cmd = s.cmd := rfl
@[simp] theorem boot_arg0 (s : State) : (boot s).arg0 = s.arg0 := rfl
@[simp] theorem boot_arg1 (s : State) : (boot s).arg1 = s.arg1 := rfl
@[simp] theorem boot_res (s : State) : (boot s).res = s.res := rfl
@[simp] theorem boot_prog (s : State) : (boot s).prog = s.prog := rfl
@[simp] theorem boot_cix (s : State) : (boot s).cix = s.cix := rfl
@[simp] theorem boot_phase (s : State) : (boot s).phase = s.phase := rfl
@[simp] theorem boot_ie (s : State) : (boot s).ie = true := rfl
@[simp] theorem boot_microsCount (s : State) : (boot s).microsCount = s.microsCount := rfl
@[simp] theorem boot_millisCount (s : State) : (boot s).millisCount = s.millisCount := rfl
@[simp] theorem boot_fractionCount (s : State) : (boot s).fractionCount = s.fractionCount := rfl
@[simp] theorem boot_tcnt (s : State) : (boot s).tcnt = s.tcnt := rfl
@[simp] theorem boot_tov (s : State) : (boot s).tov = s.tov := rfl
@[simp] theorem boot_timerRunning (s : State) : (boot s).timerRunning = true := rfl
@[simp] theorem boot_configured (s : State) : (boot s).configured = s.configured := rfl
@[simp] theorem boot_suspended (s : State) : (boot s).suspended = s.suspended := rfl
@[simp] theorem boot_usbAttached (s : State) : (boot s).usbAttached = true := rfl
@[simp] theorem boot_frame (s : State) : (boot s).frame = s.frame := rfl
@[simp] theorem boot_sofPending (s : State) : (boot s).sofPending = s.sofPending := rfl
@[simp] theorem boot_line (s : State) : (boot s).line = s.line := rfl
@[simp] theorem boot_sel (s : State) : (boot s).sel = s.sel := rfl
@[simp] theorem boot_cdcTx (s : State) : (boot s).cdcTx = s.cdcTx := rfl
@[simp] theorem boot_kbEp (s : State) : (boot s).kbEp = s.kbEp := rfl
@[simp] theorem boot_msEp (s : State) : (boot s).msEp = s.msEp := rfl
@[simp] theorem boot_jsEp (s : State) : (boot s).jsEp = s.jsEp := rfl
@[simp] theorem boot_rx (s : State) : (boot s).rx = s.rx := rfl
@[simp] theorem boot_peekByte (s : State) : (boot s).peekByte = s.peekByte := rfl
@[simp] theorem boot_txTimedOutPrev (s : State) : (boot s).txTimedOutPrev = s.txTimedOutPrev := rfl
@[simp] theorem boot_flushRemaining (s : State) : (boot s).flushRemaining = s.flushRemaining := rfl
@[simp] theorem boot_writeError (s : State) : (boot s).writeError = s.writeError := rfl
@[simp] theorem boot_kb (s : State) : (boot s).kb = s.kb := rfl
@[simp] theorem boot_msButtons (s : State) : (boot s).msButtons = s.msButtons := rfl
@[simp] theorem boot_js (s : State) : (boot s).js = s.js := rfl
@[simp] theorem boot_mem (s : State) : (boot s).mem = s.mem := rfl
@[simp] theorem boot_status (s : State) : (boot s).status = s.status := rfl
@[simp] theorem boot_booted (s : State) : (boot s).booted = true := rfl
@[simp] theorem boot_sched (s : State) : (boot s).sched = s.sched := rfl

/-! ## yieldAfter -/

@[simp] theorem yieldAfter_cfg (n : Nat) (s : State) : (yieldAfter n s).cfg = s.cfg := rfl
@[simp] theorem yieldAfter_cmd (n : Nat) (s : State) : (yieldAfter n s).cmd = s.cmd := rfl
@[simp] theorem yieldAfter_arg0 (n : Nat) (s : State) : (yieldAfter n s).arg0 = s.arg0 := rfl
@[simp] theorem yieldAfter_arg1 (n : Nat) (s : State) : (yieldAfter n s).arg1 = s.arg1 := rfl
@[simp] theorem yieldAfter_res (n : Nat) (s : State) : (yieldAfter n s).res = s.res := rfl
@[simp] theorem yieldAfter_prog (n : Nat) (s : State) : (yieldAfter n s).prog = s.prog := rfl
@[simp] theorem yieldAfter_cix (n : Nat) (s : State) : (yieldAfter n s).cix = s.cix := rfl
@[simp] theorem yieldAfter_phase (n : Nat) (s : State) : (yieldAfter n s).phase = Phase.hidYield n := rfl
@[simp] theorem yieldAfter_ie (n : Nat) (s : State) : (yieldAfter n s).ie = s.ie := rfl
@[simp] theorem yieldAfter_microsCount (n : Nat) (s : State) : (yieldAfter n s).microsCount = s.microsCount := rfl
@[simp] theorem yieldAfter_millisCount (n : Nat) (s : State) : (yieldAfter n s).millisCount = s.millisCount := rfl
@[simp] theorem yieldAfter_fractionCount (n : Nat) (s : State) : (yieldAfter n s).fractionCount = s.fractionCount := rfl
@[simp] theorem yieldAfter_tcnt (n : Nat) (s : State) : (yieldAfter n s).tcnt = s.tcnt := rfl
@[simp] theorem yieldAfter_tov (n : Nat) (s : State) : (yieldAfter n s).tov = s.tov := rfl
@[simp] theorem yieldAfter_timerRunning (n : Nat) (s : State) : (yieldAfter n s).timerRunning = s.timerRunning := rfl
@[simp] theorem yieldAfter_configured (n : Nat) (s : State) : (yieldAfter n s).configured = s.configured := rfl
@[simp] theorem yieldAfter_suspended (n : Nat) (s : State) : (yieldAfter n s).suspended = s.suspended := rfl
@[simp] theorem yieldAfter_usbAttached (n : Nat) (s : State) : (yieldAfter n s).usbAttached = s.usbAttached := rfl
@[simp] theorem yieldAfter_frame (n : Nat) (s : State) : (yieldAfter n s).frame = s.frame := rfl
@[simp] theorem yieldAfter_sofPending (n : Nat) (s : State) : (yieldAfter n s).sofPending = s.sofPending := rfl
@[simp] theorem yieldAfter_line (n : Nat) (s : State) : (yieldAfter n s).line = s.line := rfl
@[simp] theorem yieldAfter_sel (n : Nat) (s : State) : (yieldAfter n s).sel = s.sel := rfl
@[simp] theorem yieldAfter_cdcTx (n : Nat) (s : State) : (yieldAfter n s).cdcTx = s.cdcTx := rfl
@[simp] theorem yieldAfter_kbEp (n : Nat) (s : State) : (yieldAfter n s).kbEp = s.kbEp := rfl
@[simp] theorem yieldAfter_msEp (n : Nat) (s : State) : (yieldAfter n s).msEp = s.msEp := rfl
@[simp] theorem yieldAfter_jsEp (n : Nat) (s : State) : (yieldAfter n s).jsEp = s.jsEp := rfl
@[simp] theorem yieldAfter_rx (n : Nat) (s : State) : (yieldAfter n s).rx = s.rx := rfl
@[simp] theorem yieldAfter_peekByte (n : Nat) (s : State) : (yieldAfter n s).peekByte = s.peekByte := rfl
@[simp] theorem yieldAfter_txTimedOutPrev (n : Nat) (s : State) : (yieldAfter n s).txTimedOutPrev = s.txTimedOutPrev := rfl
@[simp] theorem yieldAfter_flushRemaining (n : Nat) (s : State) : (yieldAfter n s).flushRemaining = s.flushRemaining := rfl
@[simp] theorem yieldAfter_writeError (n : Nat) (s : State) : (yieldAfter n s).writeError = s.writeError := rfl
@[simp] theorem yieldAfter_kb (n : Nat) (s : State) : (yieldAfter n s).kb = s.kb := rfl
@[simp] theorem yieldAfter_msButtons (n : Nat) (s : State) : (yieldAfter n s).msButtons = s.msButtons := rfl
@[simp] theorem yieldAfter_js (n : Nat) (s : State) : (yieldAfter n s).js = s.js := rfl
@[simp] theorem yieldAfter_mem (n : Nat) (s : State) : (yieldAfter n s).mem = s.mem := rfl
@[simp] theorem yieldAfter_status (n : Nat) (s : State) : (yieldAfter n s).status = s.status := rfl
@[simp] theorem yieldAfter_booted (n : Nat) (s : State) : (yieldAfter n s).booted = s.booted := rfl
@[simp] theorem yieldAfter_sched (n : Nat) (s : State) : (yieldAfter n s).sched = s.sched := rfl

/-! ## armFlush -/

@[simp] theorem armFlush_cfg (s : State) : (armFlush s).cfg = s.cfg := rfl
@[simp] theorem armFlush_cmd (s : State) : (armFlush s).cmd = s.cmd := rfl
@[simp] theorem armFlush_arg0 (s : State) : (armFlush s).arg0 = s.arg0 := rfl
@[simp] theorem armFlush_arg1 (s : State) : (armFlush s).arg1 = s.arg1 := rfl
@[simp] theorem armFlush_res (s : State) : (armFlush s).res = s.res := rfl
@[simp] theorem armFlush_prog (s : State) : (armFlush s).prog = s.prog := rfl
@[simp] theorem armFlush_cix (s : State) : (armFlush s).cix = s.cix := rfl
@[simp] theorem armFlush_phase (s : State) : (armFlush s).phase = s.phase := rfl
@[simp] theorem armFlush_ie (s : State) : (armFlush s).ie = s.ie := rfl
@[simp] theorem armFlush_microsCount (s : State) : (armFlush s).microsCount = s.microsCount := rfl
@[simp] theorem armFlush_millisCount (s : State) : (armFlush s).millisCount = s.millisCount := rfl
@[simp] theorem armFlush_fractionCount (s : State) : (armFlush s).fractionCount = s.fractionCount := rfl
@[simp] theorem armFlush_tcnt (s : State) : (armFlush s).tcnt = s.tcnt := rfl
@[simp] theorem armFlush_tov (s : State) : (armFlush s).tov = s.tov := rfl
@[simp] theorem armFlush_timerRunning (s : State) : (armFlush s).timerRunning = s.timerRunning := rfl
@[simp] theorem armFlush_configured (s : State) : (armFlush s).configured = s.configured := rfl
@[simp] theorem armFlush_suspended (s : State) : (armFlush s).suspended = s.suspended := rfl
@[simp] theorem armFlush_usbAttached (s : State) : (armFlush s).usbAttached = s.usbAttached := rfl
@[simp] theorem armFlush_frame (s : State) : (armFlush s).frame = s.frame := rfl
@[simp] theorem armFlush_sofPending (s : State) : (armFlush s).sofPending = s.sofPending := rfl
@[simp] theorem armFlush_line (s : State) : (armFlush s).line = s.line := rfl
@[simp] theorem armFlush_sel (s : State) : (armFlush s).sel = s.sel := rfl
@[simp] theorem armFlush_cdcTx (s : State) : (armFlush s).cdcTx = s.cdcTx := rfl
@[simp] theorem armFlush_kbEp (s : State) : (armFlush s).kbEp = s.kbEp := rfl
@[simp] theorem armFlush_msEp (s : State) : (armFlush s).msEp = s.msEp := rfl
@[simp] theorem armFlush_jsEp (s : State) : (armFlush s).jsEp = s.jsEp := rfl
@[simp] theorem armFlush_rx (s : State) : (armFlush s).rx = s.rx := rfl
@[simp] theorem armFlush_peekByte (s : State) : (armFlush s).peekByte = s.peekByte := rfl
@[simp] theorem armFlush_txTimedOutPrev (s : State) : (armFlush s).txTimedOutPrev = s.txTimedOutPrev := rfl
@[simp] theorem armFlush_flushRemaining (s : State) : (armFlush s).flushRemaining = some s.cfg.txFlush := rfl
@[simp] theorem armFlush_writeError (s : State) : (armFlush s).writeError = s.writeError := rfl
@[simp] theorem armFlush_kb (s : State) : (armFlush s).kb = s.kb := rfl
@[simp] theorem armFlush_msButtons (s : State) : (armFlush s).msButtons = s.msButtons := rfl
@[simp] theorem armFlush_js (s : State) : (armFlush s).js = s.js := rfl
@[simp] theorem armFlush_mem (s : State) : (armFlush s).mem = s.mem := rfl
@[simp] theorem armFlush_status (s : State) : (armFlush s).status = s.status := rfl
@[simp] theorem armFlush_booted (s : State) : (armFlush s).booted = s.booted := rfl
@[simp] theorem armFlush_sched (s : State) : (armFlush s).sched = s.sched := rfl

/-! ## disarmFlush -/

@[simp] theorem disarmFlush_cfg (s : State) : (disarmFlush s).cfg = s.cfg := rfl
@[simp] theorem disarmFlush_cmd (s : State) : (disarmFlush s).cmd = s.cmd := rfl
@[simp] theorem disarmFlush_arg0 (s : State) : (disarmFlush s).arg0 = s.arg0 := rfl
@[simp] theorem disarmFlush_arg1 (s : State) : (disarmFlush s).arg1 = s.arg1 := rfl
@[simp] theorem disarmFlush_res (s : State) : (disarmFlush s).res = s.res := rfl
@[simp] theorem disarmFlush_prog (s : State) : (disarmFlush s).prog = s.prog := rfl
@[simp] theorem disarmFlush_cix (s : State) : (disarmFlush s).cix = s.cix := rfl
@[simp] theorem disarmFlush_phase (s : State) : (disarmFlush s).phase = s.phase := rfl
@[simp] theorem disarmFlush_ie (s : State) : (disarmFlush s).ie = s.ie := rfl
@[simp] theorem disarmFlush_microsCount (s : State) : (disarmFlush s).microsCount = s.microsCount := rfl
@[simp] theorem disarmFlush_millisCount (s : State) : (disarmFlush s).millisCount = s.millisCount := rfl
@[simp] theorem disarmFlush_fractionCount (s : State) : (disarmFlush s).fractionCount = s.fractionCount := rfl
@[simp] theorem disarmFlush_tcnt (s : State) : (disarmFlush s).tcnt = s.tcnt := rfl
@[simp] theorem disarmFlush_tov (s : State) : (disarmFlush s).tov = s.tov := rfl
@[simp] theorem disarmFlush_timerRunning (s : State) : (disarmFlush s).timerRunning = s.timerRunning := rfl
@[simp] theorem disarmFlush_configured (s : State) : (disarmFlush s).configured = s.configured := rfl
@[simp] theorem disarmFlush_suspended (s : State) : (disarmFlush s).suspended = s.suspended := rfl
@[simp] theorem disarmFlush_usbAttached (s : State) : (disarmFlush s).usbAttached = s.usbAttached := rfl
@[simp] theorem disarmFlush_frame (s : State) : (disarmFlush s).frame = s.frame := rfl
@[simp] theorem disarmFlush_sofPending (s : State) : (disarmFlush s).sofPending = s.sofPending := rfl
@[simp] theorem disarmFlush_line (s : State) : (disarmFlush s).line = s.line := rfl
@[simp] theorem disarmFlush_sel (s : State) : (disarmFlush s).sel = s.sel := rfl
@[simp] theorem disarmFlush_cdcTx (s : State) : (disarmFlush s).cdcTx = s.cdcTx := rfl
@[simp] theorem disarmFlush_kbEp (s : State) : (disarmFlush s).kbEp = s.kbEp := rfl
@[simp] theorem disarmFlush_msEp (s : State) : (disarmFlush s).msEp = s.msEp := rfl
@[simp] theorem disarmFlush_jsEp (s : State) : (disarmFlush s).jsEp = s.jsEp := rfl
@[simp] theorem disarmFlush_rx (s : State) : (disarmFlush s).rx = s.rx := rfl
@[simp] theorem disarmFlush_peekByte (s : State) : (disarmFlush s).peekByte = s.peekByte := rfl
@[simp] theorem disarmFlush_txTimedOutPrev (s : State) : (disarmFlush s).txTimedOutPrev = s.txTimedOutPrev := rfl
@[simp] theorem disarmFlush_flushRemaining (s : State) : (disarmFlush s).flushRemaining = none := rfl
@[simp] theorem disarmFlush_writeError (s : State) : (disarmFlush s).writeError = s.writeError := rfl
@[simp] theorem disarmFlush_kb (s : State) : (disarmFlush s).kb = s.kb := rfl
@[simp] theorem disarmFlush_msButtons (s : State) : (disarmFlush s).msButtons = s.msButtons := rfl
@[simp] theorem disarmFlush_js (s : State) : (disarmFlush s).js = s.js := rfl
@[simp] theorem disarmFlush_mem (s : State) : (disarmFlush s).mem = s.mem := rfl
@[simp] theorem disarmFlush_status (s : State) : (disarmFlush s).status = s.status := rfl
@[simp] theorem disarmFlush_booted (s : State) : (disarmFlush s).booted = s.booted := rfl
@[simp] theorem disarmFlush_sched (s : State) : (disarmFlush s).sched = s.sched := rfl

/-! ## markWriteError -/

@[simp] theorem markWriteError_cfg (s : State) : (markWriteError s).cfg = s.cfg := rfl
@[simp] theorem markWriteError_cmd (s : State) : (markWriteError s).cmd = s.cmd := rfl
@[simp] theorem markWriteError_arg0 (s : State) : (markWriteError s).arg0 = s.arg0 := rfl
@[simp] theorem markWriteError_arg1 (s : State) : (markWriteError s).arg1 = s.arg1 := rfl
@[simp] theorem markWriteError_res (s : State) : (markWriteError s).res = s.res := rfl
@[simp] theorem markWriteError_prog (s : State) : (markWriteError s).prog = s.prog := rfl
@[simp] theorem markWriteError_cix (s : State) : (markWriteError s).cix = s.cix := rfl
@[simp] theorem markWriteError_phase (s : State) : (markWriteError s).phase = s.phase := rfl
@[simp] theorem markWriteError_ie (s : State) : (markWriteError s).ie = s.ie := rfl
@[simp] theorem markWriteError_microsCount (s : State) : (markWriteError s).microsCount = s.microsCount := rfl
@[simp] theorem markWriteError_millisCount (s : State) : (markWriteError s).millisCount = s.millisCount := rfl
@[simp] theorem markWriteError_fractionCount (s : State) : (markWriteError s).fractionCount = s.fractionCount := rfl
@[simp] theorem markWriteError_tcnt (s : State) : (markWriteError s).tcnt = s.tcnt := rfl
@[simp] theorem markWriteError_tov (s : State) : (markWriteError s).tov = s.tov := rfl
@[simp] theorem markWriteError_timerRunning (s : State) : (markWriteError s).timerRunning = s.timerRunning := rfl
@[simp] theorem markWriteError_configured (s : State) : (markWriteError s).configured = s.configured := rfl
@[simp] theorem markWriteError_suspended (s : State) : (markWriteError s).suspended = s.suspended := rfl
@[simp] theorem markWriteError_usbAttached (s : State) : (markWriteError s).usbAttached = s.usbAttached := rfl
@[simp] theorem markWriteError_frame (s : State) : (markWriteError s).frame = s.frame := rfl
@[simp] theorem markWriteError_sofPending (s : State) : (markWriteError s).sofPending = s.sofPending := rfl
@[simp] theorem markWriteError_line (s : State) : (markWriteError s).line = s.line := rfl
@[simp] theorem markWriteError_sel (s : State) : (markWriteError s).sel = s.sel := rfl
@[simp] theorem markWriteError_cdcTx (s : State) : (markWriteError s).cdcTx = s.cdcTx := rfl
@[simp] theorem markWriteError_kbEp (s : State) : (markWriteError s).kbEp = s.kbEp := rfl
@[simp] theorem markWriteError_msEp (s : State) : (markWriteError s).msEp = s.msEp := rfl
@[simp] theorem markWriteError_jsEp (s : State) : (markWriteError s).jsEp = s.jsEp := rfl
@[simp] theorem markWriteError_rx (s : State) : (markWriteError s).rx = s.rx := rfl
@[simp] theorem markWriteError_peekByte (s : State) : (markWriteError s).peekByte = s.peekByte := rfl
@[simp] theorem markWriteError_txTimedOutPrev (s : State) : (markWriteError s).txTimedOutPrev = s.txTimedOutPrev := rfl
@[simp] theorem markWriteError_flushRemaining (s : State) : (markWriteError s).flushRemaining = s.flushRemaining := rfl
@[simp] theorem markWriteError_writeError (s : State) : (markWriteError s).writeError = true := rfl
@[simp] theorem markWriteError_kb (s : State) : (markWriteError s).kb = s.kb := rfl
@[simp] theorem markWriteError_msButtons (s : State) : (markWriteError s).msButtons = s.msButtons := rfl
@[simp] theorem markWriteError_js (s : State) : (markWriteError s).js = s.js := rfl
@[simp] theorem markWriteError_mem (s : State) : (markWriteError s).mem = s.mem := rfl
@[simp] theorem markWriteError_status (s : State) : (markWriteError s).status = s.status := rfl
@[simp] theorem markWriteError_booted (s : State) : (markWriteError s).booted = s.booted := rfl
@[simp] theorem markWriteError_sched (s : State) : (markWriteError s).sched = s.sched := rfl

/-! ## markTimedOut -/

@[simp] theorem markTimedOut_cfg (s : State) : (markTimedOut s).cfg = s.cfg := rfl
@[simp] theorem markTimedOut_cmd (s : State) : (markTimedOut s).cmd = s.cmd := rfl
@[simp] theorem markTimedOut_arg0 (s : State) : (markTimedOut s).arg0 = s.arg0 := rfl
@[simp] theorem markTimedOut_arg1 (s : State) : (markTimedOut s).arg1 = s.arg1 := rfl
@[simp] theorem markTimedOut_res (s : State) : (markTimedOut s).res = s.res := rfl
@[simp] theorem markTimedOut_prog (s : State) : (markTimedOut s).prog = s.prog := rfl
@[simp] theorem markTimedOut_cix (s : State) : (markTimedOut s).cix = s.cix := rfl
@[simp] theorem markTimedOut_phase (s : State) : (markTimedOut s).phase = s.phase := rfl
@[simp] theorem markTimedOut_ie (s : State) : (markTimedOut s).ie = s.ie := rfl
@[simp] theorem markTimedOut_microsCount (s : State) : (markTimedOut s).microsCount = s.microsCount := rfl
@[simp] theorem markTimedOut_millisCount (s : State) : (markTimedOut s).millisCount = s.millisCount := rfl
@[simp] theorem markTimedOut_fractionCount (s : State) : (markTimedOut s).fractionCount = s.fractionCount := rfl
@[simp] theorem markTimedOut_tcnt (s : State) : (markTimedOut s).tcnt = s.tcnt := rfl
@[simp] theorem markTimedOut_tov (s : State) : (markTimedOut s).tov = s.tov := rfl
@[simp] theorem markTimedOut_timerRunning (s : State) : (markTimedOut s).timerRunning = s.timerRunning := rfl
@[simp] theorem markTimedOut_configured (s : State) : (markTimedOut s).configured = s.configured := rfl
@[simp] theorem markTimedOut_suspended (s : State) : (markTimedOut s).suspended = s.suspended := rfl
@[simp] theorem markTimedOut_usbAttached (s : State) : (markTimedOut s).usbAttached = s.usbAttached := rfl
@[simp] theorem markTimedOut_frame (s : State) : (markTimedOut s).frame = s.frame := rfl
@[simp] theorem markTimedOut_sofPending (s : State) : (markTimedOut s).sofPending = s.sofPending := rfl
@[simp] theorem markTimedOut_line (s : State) : (markTimedOut s).line = s.line := rfl
@[simp] theorem markTimedOut_sel (s : State) : (markTimedOut s).sel = s.sel := rfl
@[simp] theorem markTimedOut_cdcTx (s : State) : (markTimedOut s).cdcTx = s.cdcTx := rfl
@[simp] theorem markTimedOut_kbEp (s : State) : (markTimedOut s).kbEp = s.kbEp := rfl
@[simp] theorem markTimedOut_msEp (s : State) : (markTimedOut s).msEp = s.msEp := rfl
@[simp] theorem markTimedOut_jsEp (s : State) : (markTimedOut s).jsEp = s.jsEp := rfl
@[simp] theorem markTimedOut_rx (s : State) : (markTimedOut s).rx = s.rx := rfl
@[simp] theorem markTimedOut_peekByte (s : State) : (markTimedOut s).peekByte = s.peekByte := rfl
@[simp] theorem markTimedOut_txTimedOutPrev (s : State) : (markTimedOut s).txTimedOutPrev = true := rfl
@[simp] theorem markTimedOut_flushRemaining (s : State) : (markTimedOut s).flushRemaining = s.flushRemaining := rfl
@[simp] theorem markTimedOut_writeError (s : State) : (markTimedOut s).writeError = true := rfl
@[simp] theorem markTimedOut_kb (s : State) : (markTimedOut s).kb = s.kb := rfl
@[simp] theorem markTimedOut_msButtons (s : State) : (markTimedOut s).msButtons = s.msButtons := rfl
@[simp] theorem markTimedOut_js (s : State) : (markTimedOut s).js = s.js := rfl
@[simp] theorem markTimedOut_mem (s : State) : (markTimedOut s).mem = s.mem := rfl
@[simp] theorem markTimedOut_status (s : State) : (markTimedOut s).status = s.status := rfl
@[simp] theorem markTimedOut_booted (s : State) : (markTimedOut s).booted = s.booted := rfl
@[simp] theorem markTimedOut_sched (s : State) : (markTimedOut s).sched = s.sched := rfl

/-! ## clearTimedOut -/

@[simp] theorem clearTimedOut_cfg (s : State) : (clearTimedOut s).cfg = s.cfg := rfl
@[simp] theorem clearTimedOut_cmd (s : State) : (clearTimedOut s).cmd = s.cmd := rfl
@[simp] theorem clearTimedOut_arg0 (s : State) : (clearTimedOut s).arg0 = s.arg0 := rfl
@[simp] theorem clearTimedOut_arg1 (s : State) : (clearTimedOut s).arg1 = s.arg1 := rfl
@[simp] theorem clearTimedOut_res (s : State) : (clearTimedOut s).res = s.res := rfl
@[simp] theorem clearTimedOut_prog (s : State) : (clearTimedOut s).prog = s.prog := rfl
@[simp] theorem clearTimedOut_cix (s : State) : (clearTimedOut s).cix = s.cix := rfl
@[simp] theorem clearTimedOut_phase (s : State) : (clearTimedOut s).phase = s.phase := rfl
@[simp] theorem clearTimedOut_ie (s : State) : (clearTimedOut s).ie = s.ie := rfl
@[simp] theorem clearTimedOut_microsCount (s : State) : (clearTimedOut s).microsCount = s.microsCount := rfl
@[simp] theorem clearTimedOut_millisCount (s : State) : (clearTimedOut s).millisCount = s.millisCount := rfl
@[simp] theorem clearTimedOut_fractionCount (s : State) : (clearTimedOut s).fractionCount = s.fractionCount := rfl
@[simp] theorem clearTimedOut_tcnt (s : State) : (clearTimedOut s).tcnt = s.tcnt := rfl
@[simp] theorem clearTimedOut_tov (s : State) : (clearTimedOut s).tov = s.tov := rfl
@[simp] theorem clearTimedOut_timerRunning (s : State) : (clearTimedOut s).timerRunning = s.timerRunning := rfl
@[simp] theorem clearTimedOut_configured (s : State) : (clearTimedOut s).configured = s.configured := rfl
@[simp] theorem clearTimedOut_suspended (s : State) : (clearTimedOut s).suspended = s.suspended := rfl
@[simp] theorem clearTimedOut_usbAttached (s : State) : (clearTimedOut s).usbAttached = s.usbAttached := rfl
@[simp] theorem clearTimedOut_frame (s : State) : (clearTimedOut s).frame = s.frame := rfl
@[simp] theorem clearTimedOut_sofPending (s : State) : (clearTimedOut s).sofPending = s.sofPending := rfl
@[simp] theorem clearTimedOut_line (s : State) : (clearTimedOut s).line = s.line := rfl
@[simp] theorem clearTimedOut_sel (s : State) : (clearTimedOut s).sel = s.sel := rfl
@[simp] theorem clearTimedOut_cdcTx (s : State) : (clearTimedOut s).cdcTx = s.cdcTx := rfl
@[simp] theorem clearTimedOut_kbEp (s : State) : (clearTimedOut s).kbEp = s.kbEp := rfl
@[simp] theorem clearTimedOut_msEp (s : State) : (clearTimedOut s).msEp = s.msEp := rfl
@[simp] theorem clearTimedOut_jsEp (s : State) : (clearTimedOut s).jsEp = s.jsEp := rfl
@[simp] theorem clearTimedOut_rx (s : State) : (clearTimedOut s).rx = s.rx := rfl
@[simp] theorem clearTimedOut_peekByte (s : State) : (clearTimedOut s).peekByte = s.peekByte := rfl
@[simp] theorem clearTimedOut_txTimedOutPrev (s : State) : (clearTimedOut s).txTimedOutPrev = false := rfl
@[simp] theorem clearTimedOut_flushRemaining (s : State) : (clearTimedOut s).flushRemaining = s.flushRemaining := rfl
@[simp] theorem clearTimedOut_writeError (s : State) : (clearTimedOut s).writeError = s.writeError := rfl
@[simp] theorem clearTimedOut_kb (s : State) : (clearTimedOut s).kb = s.kb := rfl
@[simp] theorem clearTimedOut_msButtons (s : State) : (clearTimedOut s).msButtons = s.msButtons := rfl
@[simp] theorem clearTimedOut_js (s : State) : (clearTimedOut s).js = s.js := rfl
@[simp] theorem clearTimedOut_mem (s : State) : (clearTimedOut s).mem = s.mem := rfl
@[simp] theorem clearTimedOut_status (s : State) : (clearTimedOut s).status = s.status := rfl
@[simp] theorem clearTimedOut_booted (s : State) : (clearTimedOut s).booted = s.booted := rfl
@[simp] theorem clearTimedOut_sched (s : State) : (clearTimedOut s).sched = s.sched := rfl

/-! ## setInEp -/

@[simp] theorem setInEp_cfg (e : InEp) (v : InEndpoint) (s : State) : (s.setInEp e v).cfg = s.cfg := by
  cases e <;> rfl
@[simp] theorem setInEp_cmd (e : InEp) (v : InEndpoint) (s : State) : (s.setInEp e v).cmd = s.cmd := by
  cases e <;> rfl
@[simp] theorem setInEp_arg0 (e : InEp) (v : InEndpoint) (s : State) : (s.setInEp e v).arg0 = s.arg0 := by
  cases e <;> rfl
@[simp] theorem setInEp_arg1 (e : InEp) (v : InEndpoint) (s : State) : (s.setInEp e v).arg1 = s.arg1 := by
  cases e <;> rfl
@[simp] theorem setInEp_res (e : InEp) (v : InEndpoint) (s : State) : (s.setInEp e v).res = s.res := by
  cases e <;> rfl
@[simp] theorem setInEp_prog (e : InEp) (v : InEndpoint) (s : State) : (s.setInEp e v).prog = s.prog := by
  cases e <;> rfl
@[simp] theorem setInEp_cix (e : InEp) (v : InEndpoint) (s : State) : (s.setInEp e v).cix = s.cix := by
  cases e <;> rfl
@[simp] theorem setInEp_phase (e : InEp) (v : InEndpoint) (s : State) : (s.setInEp e v).phase = s.phase := by
  cases e <;> rfl
@[simp] theorem setInEp_ie (e : InEp) (v : InEndpoint) (s : State) : (s.setInEp e v).ie = s.ie := by
  cases e <;> rfl
@[simp] theorem setInEp_microsCount (e : InEp) (v : InEndpoint) (s : State) : (s.setInEp e v).microsCount = s.microsCount := by
  cases e <;> rfl
@[simp] theorem setInEp_millisCount (e : InEp) (v : InEndpoint) (s : State) : (s.setInEp e v).millisCount = s.millisCount := by
  cases e <;> rfl
@[simp] theorem setInEp_fractionCount (e : InEp) (v : InEndpoint) (s : State) : (s.setInEp e v).fractionCount = s.fractionCount := by
  cases e <;> rfl
@[simp] theorem setInEp_tcnt (e : InEp) (v : InEndpoint) (s : State) : (s.setInEp e v).tcnt = s.tcnt := by
  cases e <;> rfl
@[simp] theorem setInEp_tov (e : InEp) (v : InEndpoint) (s : State) : (s.setInEp e v).tov = s.tov := by
  cases e <;> rfl
@[simp] theorem setInEp_timerRunning (e : InEp) (v : InEndpoint) (s : State) : (s.setInEp e v).timerRunning = s.timerRunning := by
  cases e <;> rfl
@[simp] theorem setInEp_configured (e : InEp) (v : InEndpoint) (s : State) : (s.setInEp e v).configured = s.configured := by
  cases e <;> rfl
@[simp] theorem setInEp_suspended (e : InEp) (v : InEndpoint) (s : State) : (s.setInEp e v).suspended = s.suspended := by
  cases e <;> rfl
@[simp] theorem setInEp_usbAttached (e : InEp) (v : InEndpoint) (s : State) : (s.setInEp e v).usbAttached = s.usbAttached := by
  cases e <;> rfl
@[simp] theorem setInEp_frame (e : InEp) (v : InEndpoint) (s : State) : (s.setInEp e v).frame = s.frame := by
  cases e <;> rfl
@[simp] theorem setInEp_sofPending (e : InEp) (v : InEndpoint) (s : State) : (s.setInEp e v).sofPending = s.sofPending := by
  cases e <;> rfl
@[simp] theorem setInEp_line (e : InEp) (v : InEndpoint) (s : State) : (s.setInEp e v).line = s.line := by
  cases e <;> rfl
@[simp] theorem setInEp_sel (e : InEp) (v : InEndpoint) (s : State) : (s.setInEp e v).sel = s.sel := by
  cases e <;> rfl
@[simp] theorem setInEp_rx (e : InEp) (v : InEndpoint) (s : State) : (s.setInEp e v).rx = s.rx := by
  cases e <;> rfl
@[simp] theorem setInEp_peekByte (e : InEp) (v : InEndpoint) (s : State) : (s.setInEp e v).peekByte = s.peekByte := by
  cases e <;> rfl
@[simp] theorem setInEp_txTimedOutPrev (e : InEp) (v : InEndpoint) (s : State) : (s.setInEp e v).txTimedOutPrev = s.txTimedOutPrev := by
  cases e <;> rfl
@[simp] theorem setInEp_flushRemaining (e : InEp) (v : InEndpoint) (s : State) : (s.setInEp e v).flushRemaining = s.flushRemaining := by
  cases e <;> rfl
@[simp] theorem setInEp_writeError (e : InEp) (v : InEndpoint) (s : State) : (s.setInEp e v).writeError = s.writeError := by
  cases e <;> rfl
@[simp] theorem setInEp_kb (e : InEp) (v : InEndpoint) (s : State) : (s.setInEp e v).kb = s.kb := by
  cases e <;> rfl
@[simp] theorem setInEp_msButtons (e : InEp) (v : InEndpoint) (s : State) : (s.setInEp e v).msButtons = s.msButtons := by
  cases e <;> rfl
@[simp] theorem setInEp_js (e : InEp) (v : InEndpoint) (s : State) : (s.setInEp e v).js = s.js := by
  cases e <;> rfl
@[simp] theorem setInEp_mem (e : InEp) (v : InEndpoint) (s : State) : (s.setInEp e v).mem = s.mem := by
  cases e <;> rfl
@[simp] theorem setInEp_status (e : InEp) (v : InEndpoint) (s : State) : (s.setInEp e v).status = s.status := by
  cases e <;> rfl
@[simp] theorem setInEp_booted (e : InEp) (v : InEndpoint) (s : State) : (s.setInEp e v).booted = s.booted := by
  cases e <;> rfl
@[simp] theorem setInEp_sched (e : InEp) (v : InEndpoint) (s : State) : (s.setInEp e v).sched = s.sched := by
  cases e <;> rfl

@[simp] theorem inEp_setInEp (e : InEp) (v : InEndpoint) (s : State) : (s.setInEp e v).inEp e = v := by
  cases e <;> rfl

theorem inEp_setInEp_ne (e f : InEp) (v : InEndpoint) (s : State) (h : f ≠ e) :
    (s.setInEp e v).inEp f = s.inEp f := by
  cases e <;> cases f <;> first | rfl | exact absurd rfl h

/-! ## The endpoint accessor under the updates -/

@[simp] theorem inEp_complete (v : Word) (s : State) (ep : InEp) : (complete v s).inEp ep = s.inEp ep := by
  cases ep <;> rfl
@[simp] theorem inEp_raiseFault (c : FaultCode) (s : State) (ep : InEp) : (raiseFault c s).inEp ep = s.inEp ep := by
  cases ep <;> rfl
@[simp] theorem inEp_csEnter (s : State) (ep : InEp) : (csEnter s).inEp ep = s.inEp ep := by
  cases ep <;> rfl
@[simp] theorem inEp_csExit (b : Bool) (s : State) (ep : InEp) : (csExit b s).inEp ep = s.inEp ep := by
  cases ep <;> rfl
@[simp] theorem inEp_select (e : Endpoint) (s : State) (ep : InEp) : (select e s).inEp ep = s.inEp ep := by
  cases ep <;> rfl
@[simp] theorem inEp_latch (c : Command) (s : State) (ep : InEp) : (latch c s).inEp ep = s.inEp ep := by
  cases ep <;> rfl
@[simp] theorem inEp_boot (s : State) (ep : InEp) : (boot s).inEp ep = s.inEp ep := by
  cases ep <;> rfl
@[simp] theorem inEp_yieldAfter (n : Nat) (s : State) (ep : InEp) : (yieldAfter n s).inEp ep = s.inEp ep := by
  cases ep <;> rfl
@[simp] theorem inEp_armFlush (s : State) (ep : InEp) : (armFlush s).inEp ep = s.inEp ep := by
  cases ep <;> rfl
@[simp] theorem inEp_disarmFlush (s : State) (ep : InEp) : (disarmFlush s).inEp ep = s.inEp ep := by
  cases ep <;> rfl
@[simp] theorem inEp_markWriteError (s : State) (ep : InEp) : (markWriteError s).inEp ep = s.inEp ep := by
  cases ep <;> rfl
@[simp] theorem inEp_markTimedOut (s : State) (ep : InEp) : (markTimedOut s).inEp ep = s.inEp ep := by
  cases ep <;> rfl
@[simp] theorem inEp_clearTimedOut (s : State) (ep : InEp) : (clearTimedOut s).inEp ep = s.inEp ep := by
  cases ep <;> rfl

/-- A critical section entered and left with the captured value leaves the state. -/
@[simp] theorem csExit_csEnter (s : State) : csExit s.ie (csEnter s) = s := rfl

@[simp] theorem csExit_csExit (a b : Bool) (s : State) : csExit a (csExit b s) = csExit a s := rfl

end Sys2Proof.Machine
end

