-- ==== Sys2Proof/Laws/Memory.lean ====
section
/-! SUPPORT. Caller memory keeps its canonical form under every operation. The read-after-write laws are an obligation
(CallerMemoryLaws); what stands here is the form. -/

namespace Sys2Proof.Machine.Memory

/-- Every address of a written memory was there before or is the one written. -/
theorem mem_write {m : Memory} {a : Nat} {v : Byte} {c : Host.Cell} (h : c ∈ m.write a v) :
    c ∈ m ∨ (c = (a, v) ∧ v ≠ 0) := by
  induction m with
  | nil =>
    unfold write at h
    split at h <;> simp_all
  | cons x m ih =>
    obtain ⟨k, w⟩ := x
    unfold write at h
    split at h
    · split at h
      · exact .inl h
      · rcases List.mem_cons.1 h with rfl | h
        · exact .inr ⟨rfl, by assumption⟩
        · exact .inl h
    · split at h
      · split at h
        · exact .inl (List.mem_cons_of_mem _ h)
        · rcases List.mem_cons.1 h with rfl | h
          · exact .inr ⟨rfl, by assumption⟩
          · exact .inl (List.mem_cons_of_mem _ h)
      · rcases List.mem_cons.1 h with rfl | h
        · exact .inl (List.mem_cons_self ..)
        · exact (ih h).imp_left (List.mem_cons_of_mem _)

/-- A write keeps the canonical form. -/
theorem write_wf {m : Memory} (a : Nat) (v : Byte) (h : wf m) : wf (m.write a v) := by
  induction m with
  | nil =>
    unfold write
    split <;> simp_all [wf]
  | cons x m ih =>
    obtain ⟨k, w⟩ := x
    obtain ⟨hs, hz⟩ := h
    rw [List.pairwise_cons] at hs
    have hm : wf m := ⟨hs.2, fun c hc => hz c (List.mem_cons_of_mem _ hc)⟩
    unfold write
    split
    · rename_i hak
      split
      · exact ⟨List.pairwise_cons.2 hs, hz⟩
      · rename_i hv
        refine ⟨List.pairwise_cons.2 ⟨fun c hc => ?_, List.pairwise_cons.2 hs⟩, fun c hc => ?_⟩
        · rcases List.mem_cons.1 hc with rfl | hc
          · exact hak
          · exact Nat.lt_trans hak (hs.1 c hc)
        · rcases List.mem_cons.1 hc with rfl | hc
          · exact hv
          · exact hz c hc
    · rename_i hak
      split
      · rename_i heq
        subst heq
        split
        · exact hm
        · rename_i hv
          refine ⟨List.pairwise_cons.2 ⟨hs.1, hs.2⟩, fun c hc => ?_⟩
          rcases List.mem_cons.1 hc with rfl | hc
          · exact hv
          · exact hz c (List.mem_cons_of_mem _ hc)
      · rename_i hne
        have hw := ih hm
        refine ⟨List.pairwise_cons.2 ⟨fun c hc => ?_, hw.1⟩, fun c hc => ?_⟩
        · rcases mem_write hc with hc | ⟨rfl, -⟩
          · exact hs.1 c hc
          · show k < a
            omega
        · rcases List.mem_cons.1 hc with rfl | hc
          · exact hz _ (List.mem_cons_self ..)
          · exact hw.2 c hc

/-- Loading bytes keeps the canonical form. -/
theorem load_wf {m : Memory} (a : Nat) (bs : List Byte) (h : wf m) : wf (m.load a bs) := by
  induction bs generalizing m a with
  | nil => exact h
  | cons b bs ih => exact ih (a + 1) (write_wf a b h)

@[simp] theorem bytes_length (m : Memory) (a n : Nat) : (m.bytes a n).length = n := by simp [bytes]

/-- Reading in two pieces. -/
theorem bytes_add (m : Memory) (a n k : Nat) : m.bytes a (n + k) = m.bytes a n ++ m.bytes (a + n) k := by
  simp [bytes, List.range_add, Nat.add_assoc, Function.comp_def]

end Sys2Proof.Machine.Memory
end

