-- ==== Sys2Proof/Laws/Ops.lean ====
section
/-! SUPPORT. One lemma for each shared operation, saying once what it does: the endpoint primitives with `SEL` right, the
wait, the HID send and its wait, the receive loop and the write loop. Later proofs cite these and do not unfold. -/

namespace Sys2Proof.Machine

/-! ## The error monad -/

@[simp] theorem ok_bind {α β : Type} (a : α) (f : α → Except Stop β) : ((Except.ok a : Except Stop α) >>= f) = f a := rfl

@[simp] theorem error_bind {α β : Type} (x : Stop) (f : α → Except Stop β) :
    ((Except.error x : Except Stop α) >>= f) = .error x := rfl

@[simp] theorem pure_eq_ok {α : Type} (a : α) : (pure a : Except Stop α) = .ok a := rfl

@[simp] theorem throw_eq_error {α : Type} (x : Stop) : (throw x : Except Stop α) = .error x := rfl

@[simp] theorem conclude_ok (s t : State) : conclude s (.ok t) = .next t := rfl

@[simp] theorem conclude_raise (s : State) (c : FaultCode) : conclude s (.error (.raise c)) = .next (raiseFault c s) := rfl

@[simp] theorem conclude_broken (s : State) (f : Fault) : conclude s (.error (.broken f)) = .fault f := rfl

/-- An idle command runs its body. -/
theorem atIdle_idle {s : State} (h : s.phase = .idle) (body : State → Except Stop State) :
    atIdle body s = conclude s (body s) := by simp [atIdle, h]

/-- A command of one step ends in a next state only from idle. -/
theorem atIdle_next {s t : State} {body : State → Except Stop State} (h : atIdle body s = .next t) :
    s.phase = .idle ∧ conclude s (body s) = .next t := by
  unfold atIdle at h
  split at h
  · exact ⟨by assumption, h⟩
  · exact absurd h (by simp)

/-- How a MAIN step comes to a next state: its body ran through, or it raised a fault. -/
theorem conclude_next {s t : State} {r : Except Stop State} (h : conclude s r = .next t) :
    r = .ok t ∨ ∃ c, r = .error (.raise c) ∧ t = raiseFault c s := by
  match r, h with
  | .ok u, h => exact .inl (by simpa using h)
  | .error (.raise c), h => exact .inr ⟨c, rfl, by simpa using h.symm⟩

/-! ## Selection and the IN endpoints -/

@[simp] theorem enterSelect_sel (e : Endpoint) (s : State) : (enterSelect e s).sel = e := rfl

@[simp] theorem checkSel_eq {e : Endpoint} {s : State} (h : s.sel = e) : checkSel e s = .ok () := by
  simp [checkSel, h]

/-- `EpWritable` on the selected endpoint is its formula. -/
theorem epWritable_eq {e : InEp} {s : State} (h : s.sel = e.toEndpoint) : epWritable e s = .ok (writable e s) := by
  simp [epWritable, h]

/-- `EpAppend` on the selected endpoint within its precondition. -/
theorem epAppend_eq {e : InEp} {s : State} {bs : List Byte} (h : s.sel = e.toEndpoint) (hw : writable e s = true)
    (hl : (s.inEp e).cur.length + bs.length ≤ s.cfg.size.at e) :
    epAppend e bs s = .ok (s.setInEp e ((s.inEp e).append bs)) := by
  simp [epAppend, h, hw, hl]

/-- `EpRelease` on the selected endpoint. -/
theorem epRelease_eq {e : InEp} {s : State} (h : s.sel = e.toEndpoint) :
    epRelease e s = .ok (s.setInEp e (s.inEp e).release) := by
  simp [epRelease, h]

/-- The formula of `EpWritable` (R127). -/
theorem writable_iff {e : InEp} {s : State} : writable e s = true ↔
    (s.inEp e).released.length < s.cfg.banks.at e ∧ (s.inEp e).cur.length < s.cfg.size.at e := decide_eq_true_iff

/-- Writability reads only the endpoint and the configuration. -/
theorem writable_congr {e : InEp} {s t : State} (h : t.inEp e = s.inEp e) (hc : t.cfg = s.cfg) :
    writable e t = writable e s := by simp [writable, h, hc]

@[simp] theorem writable_enterSelect (e : InEp) (f : Endpoint) (s : State) :
    writable e (enterSelect f s) = writable e s := by simp [writable, enterSelect]

@[simp] theorem linkUsable_csEnter (s : State) : linkUsable (csEnter s) = linkUsable s := rfl

@[simp] theorem linkUsable_enterSelect (f : Endpoint) (s : State) : linkUsable (enterSelect f s) = linkUsable s := rfl

/-- Leaving a section entered for an access keeps only the selection. -/
theorem csExit_enterSelect (e : Endpoint) (s : State) : csExit s.ie (enterSelect e s) = select e s := rfl

/-! ## The wait -/

/-- The head of the wait loop on the selected endpoint. -/
theorem waitHead_eq {e : InEp} {s : State} (saved : Bool) (h : s.sel = e.toEndpoint) :
    waitHead e saved s = .ok (if writable e s then .ready saved s else .yielded (csExit saved s)) := by
  unfold waitHead
  rw [epWritable_eq h]
  cases writable e s <;> simp

/-- The wait from its entry. -/
theorem waitEnter_eq (e : InEp) (s : State) :
    waitHead e s.ie (enterSelect e.toEndpoint s) =
      .ok (if writable e s then .ready s.ie (enterSelect e.toEndpoint s) else .yielded (select e.toEndpoint s)) := by
  rw [waitHead_eq _ (enterSelect_sel _ _), writable_enterSelect, csExit_enterSelect]

/-- The wait from its yield: its three ends and its going on. -/
theorem waitResume_eq (e : InEp) (budget start : Nat) (s : State) :
    waitResume e budget start s = .ok (
      if linkUsable s = false then .linkLost s
      else if budget ≤ subMod s.cfg.frameBits s.frame start then .timedOut s
      else if writable e s then .ready s.ie (enterSelect e.toEndpoint s)
      else .yielded (select e.toEndpoint s)) := by
  unfold waitResume
  rw [waitEnter_eq]
  cases linkUsable s <;> simp
  split <;> rfl

/-! ## The HID send -/

/-- A ready wait sends: the report is the newest released packet, and the section is left. -/
theorem hidAfterWait_ready {e : InEp} {report : List Byte} {stage start : Nat} {k : State → State} {s : State}
    (hw : writable e s = true) (hc : (s.inEp e).cur = []) (hl : report.length ≤ s.cfg.size.at e) (hr : report ≠ []) :
    hidAfterWait e report stage start k (.ready s.ie (enterSelect e.toEndpoint s)) = .ok (k (hidSent e report s)) := by
  have h1 : writable e (enterSelect e.toEndpoint s) = true := by simpa using hw
  have h2 : ((enterSelect e.toEndpoint s).inEp e) = s.inEp e := by simp [enterSelect]
  simp only [hidAfterWait]
  rw [epAppend_eq rfl h1 (by rw [h2, hc]; simpa [enterSelect] using hl)]
  simp only [ok_bind]
  rw [epRelease_eq (by simp)]
  simp only [ok_bind, pure_eq_ok, inEp_setInEp, h2]
  congr 2
  cases e <;>
    simp_all [hidSent, InEndpoint.append, InEndpoint.release, State.setInEp, State.inEp, enterSelect, select, csEnter,
      csExit]

/-- Every way `HidSend` goes from its first line. -/
theorem hidSend_outcome (e : InEp) (report : List Byte) (stage : Nat) (k : State → State) (s : State) :
    (linkUsable s = false → hidSend e report stage k s = .ok (k s)) ∧
    (linkUsable s = true → writable e s = false →
      hidSend e report stage k s = .ok { s with sel := e.toEndpoint, phase := .hidWait stage s.frame }) ∧
    (linkUsable s = true → writable e s = true → (s.inEp e).cur = [] → report.length ≤ s.cfg.size.at e → report ≠ [] →
      hidSend e report stage k s = .ok (k (hidSent e report s))) := by
  refine ⟨fun h => by simp [hidSend, h], fun h hw => ?_, fun h hw hc hl hr => ?_⟩
  · simp only [hidSend, h, if_true]
    rw [waitEnter_eq, hw]
    rfl
  · simp only [hidSend, h, if_true]
    rw [waitEnter_eq, hw]
    exact hidAfterWait_ready (stage := stage) (start := s.frame) hw hc hl hr

/-- Every way `HidSend` goes from the yield of its wait. -/
theorem hidResume_outcome (e : InEp) (report : List Byte) (stage start : Nat) (k : State → State) (s : State) :
    (linkUsable s = false → hidResume e report stage start k s = .ok (k s)) ∧
    (linkUsable s = true → s.cfg.hidTimeout ≤ subMod s.cfg.frameBits s.frame start →
      hidResume e report stage start k s = .ok (k s)) ∧
    (linkUsable s = true → subMod s.cfg.frameBits s.frame start < s.cfg.hidTimeout → writable e s = false →
      hidResume e report stage start k s = .ok { s with sel := e.toEndpoint, phase := .hidWait stage start }) ∧
    (linkUsable s = true → subMod s.cfg.frameBits s.frame start < s.cfg.hidTimeout → writable e s = true →
      (s.inEp e).cur = [] → report.length ≤ s.cfg.size.at e → report ≠ [] →
      hidResume e report stage start k s = .ok (k (hidSent e report s))) := by
  unfold hidResume
  rw [waitResume_eq]
  refine ⟨fun h => by simp [h, hidAfterWait], fun h ht => by simp [h, ht, hidAfterWait], fun h ht hw => ?_,
    fun h ht hw hc hl hr => ?_⟩
  · simp [h, Nat.not_le.2 ht, hw, hidAfterWait, select]
  · simp only [h, Nat.not_le.2 ht, hw, if_true, if_false, Bool.true_eq_false, ok_bind]
    exact hidAfterWait_ready hw hc hl hr

/-! ## The OUT endpoint -/

/-- `RxTotal` on the selected endpoint (R131). -/
theorem rxTotal_eq {s : State} (h : s.sel = .cdcRx) : rxTotal s = .ok (rxCount s.rx) := by simp [rxTotal, h]

/-- `RxReleaseAll` on the selected endpoint (R134). -/
theorem rxReleaseAll_eq {s : State} (h : s.sel = .cdcRx) : rxReleaseAll s = .ok { s with rx := [] } := by
  simp [rxReleaseAll, h]

/-- `RxReleaseHead` on the selected endpoint (R133). -/
theorem rxReleaseHead_eq {s : State} {bank : List Byte} {rest : List (List Byte)} (h : s.sel = .cdcRx)
    (hr : s.rx = bank :: rest) : rxReleaseHead s = .ok { s with rx := rest } := by simp [rxReleaseHead, h, hr]

/-- `RxTakeByte` on the selected endpoint (R132). -/
theorem rxTakeByte_eq {s : State} {b : Byte} {bank : List Byte} {rest : List (List Byte)} (h : s.sel = .cdcRx)
    (hr : s.rx = (b :: bank) :: rest) : rxTakeByte s = .ok (b, { s with rx := bank :: rest }) := by
  simp [rxTakeByte, h, hr]

/-! ## The receive loop -/

/-- The receive loop on the selected endpoint takes the next byte of the received banks. -/
theorem rxLoop_eq (n : Nat) (s : State) (hsel : s.sel = .cdcRx) (hn : s.rx.length ≤ n) :
    rxLoop n s = .ok ((rxNext s.rx).1, { s with rx := (rxNext s.rx).2 }) := by
  induction n generalizing s with
  | zero =>
    have : s.rx = [] := List.eq_nil_of_length_eq_zero (Nat.le_zero.1 hn)
    simp [rxLoop, this, rxNext]
    cases s
    simp_all
  | succ n ih =>
    match hrx : s.rx with
    | [] =>
      simp [rxLoop, hrx, rxNext]
      cases s
      simp_all
    | [] :: rest =>
      have hn' : rest.length ≤ n := by
        rw [hrx] at hn
        exact Nat.le_of_succ_le_succ hn
      simp only [rxLoop, hrx, rxReleaseHead, checkSel_eq hsel, ok_bind, pure_eq_ok]
      exact ih { s with rx := rest } hsel hn'
    | [b] :: rest =>
      simp [rxLoop, hrx, rxTakeByte, rxReleaseHead, rxNext, checkSel, hsel]
    | (b :: c :: bank) :: rest =>
      simp [rxLoop, hrx, rxTakeByte, checkSel_eq hsel, rxNext]

/-- `RxGet` on a usable link. -/
theorem rxGet_usable {s : State} (h : linkUsable s = true) :
    rxGet s = .ok ((rxNext s.rx).1, { s with sel := .cdcRx, rx := (rxNext s.rx).2 }) := by
  simp only [rxGet, h, if_true]
  rw [rxLoop_eq s.rx.length (enterSelect .cdcRx s) rfl (Nat.le_refl _)]
  rfl

/-- `RxGet` on an unusable link. -/
theorem rxGet_unusable {s : State} (h : linkUsable s = false) : rxGet s = .ok (none, s) := by
  simp [rxGet, h]

end Sys2Proof.Machine
end

