-- ==== Sys2Proof/Laws/Write.lean ====
section
/-! SUPPORT. The packet framer: how a byte stream splits into full packets and a rest, and the two ways the loop of
SER_WRITE ends a step: everything fitted, or the free banks are full. -/

namespace Sys2Proof.Machine

/-! ## Splitting a stream -/

theorem fullPackets_short {n : Nat} {bs : List Byte} (h : bs.length < n) : fullPackets n bs = [] := by
  simp [fullPackets, Nat.div_eq_of_lt h]

theorem packetRest_short {n : Nat} {bs : List Byte} (h : bs.length < n) : packetRest n bs = bs := by
  simp [packetRest, Nat.div_eq_of_lt h]

theorem div_full {n l : Nat} (hn : 0 < n) (h : n ≤ l) : l / n = (l - n) / n + 1 := by
  rw [Nat.div_eq_sub_div hn h]

theorem fullPackets_full {n : Nat} {bs : List Byte} (hn : 0 < n) (h : n ≤ bs.length) :
    fullPackets n bs = bs.take n :: fullPackets n (bs.drop n) := by
  simp only [fullPackets, List.length_drop]
  rw [div_full hn h, List.range_succ_eq_map]
  simp [Function.comp_def, Nat.succ_mul, Nat.add_comm]

theorem packetRest_full {n : Nat} {bs : List Byte} (hn : 0 < n) (h : n ≤ bs.length) :
    packetRest n bs = packetRest n (bs.drop n) := by
  simp only [packetRest, List.length_drop, List.drop_drop]
  rw [div_full hn h, Nat.succ_mul, Nat.add_comm]

/-- The full packets and the rest are the stream. -/
theorem fullPackets_flatten {n : Nat} (hn : 0 < n) (bs : List Byte) :
    (fullPackets n bs).flatten ++ packetRest n bs = bs := by
  by_cases h : bs.length < n
  · simp [fullPackets_short h, packetRest_short h]
  · have h' := Nat.not_lt.1 h
    rw [fullPackets_full hn h', packetRest_full hn h', List.flatten_cons, List.append_assoc,
      fullPackets_flatten hn (bs.drop n), List.take_append_drop]
termination_by bs.length
decreasing_by
  simp only [List.length_drop]
  omega

theorem fullPackets_length (n : Nat) (bs : List Byte) : (fullPackets n bs).length = bs.length / n := by
  simp [fullPackets]

theorem packetRest_length (n : Nat) (bs : List Byte) : (packetRest n bs).length = bs.length % n := by
  simp only [packetRest, List.length_drop]
  rw [Nat.mod_eq_sub, Nat.mul_comm]

theorem fullPackets_size {n : Nat} (hn : 0 < n) {bs p : List Byte} (h : p ∈ fullPackets n bs) : p.length = n := by
  simp only [fullPackets, List.mem_map, List.mem_range] at h
  obtain ⟨k, hk, rfl⟩ := h
  have : (k + 1) * n ≤ bs.length / n * n := Nat.mul_le_mul_right n hk
  have := Nat.div_mul_le_self bs.length n
  simp only [List.length_take, List.length_drop]
  rw [Nat.succ_mul] at *
  omega

/-! ## One pass of the loop -/

/-- The state after a pass that fills the bank: the packet is released and the deadline disarmed. -/
def afterFull (buf : Nat) (s : State) : State :=
  let p := s.cdcTx.cur ++ s.mem.bytes buf (s.cfg.size.cdcTx - s.cdcTx.cur.length)
  { s with cdcTx := { s.cdcTx with cur := [], released := s.cdcTx.released ++ [p] }, flushRemaining := none }

/-- The state after a pass that leaves the bank partial: the deadline is armed. -/
def afterPartial (buf size : Nat) (s : State) : State :=
  { s with
    cdcTx := { s.cdcTx with cur := s.cdcTx.cur ++ s.mem.bytes buf size }
    flushRemaining := some s.cfg.txFlush }

/-- The framer's condition for one more byte. -/
theorem writable_cdcTx (s : State) : writable .cdcTx s = true ↔
    s.cdcTx.released.length < s.cfg.banks.cdcTx ∧ s.cdcTx.cur.length < s.cfg.size.cdcTx := writable_iff

/-- A pass on the selected, writable endpoint: the two cases of R155. -/
theorem writeChunk_eq {s : State} (buf size : Nat) (hsel : s.sel = .cdcTx) (hw : writable .cdcTx s = true) :
    writeChunk buf size s = .ok (
      if s.cdcTx.cur.length + size < s.cfg.size.cdcTx then afterPartial buf size s else afterFull buf s) := by
  have hroom := ((writable_cdcTx s).1 hw).2
  unfold writeChunk
  rw [epAppend_eq hsel hw (by
    simp only [State.inEp, PerEndpoint.at, Memory.bytes_length, chunkLen]
    omega)]
  simp only [ok_bind, State.inEp, State.setInEp, InEndpoint.append, List.length_append, Memory.bytes_length, chunkLen]
  by_cases h : s.cdcTx.cur.length + size < s.cfg.size.cdcTx
  · have hn : min (s.cfg.size.cdcTx - s.cdcTx.cur.length) size = size := by omega
    rw [hn, if_neg (by omega), if_pos h]
    rfl
  · have hn : min (s.cfg.size.cdcTx - s.cdcTx.cur.length) size = s.cfg.size.cdcTx - s.cdcTx.cur.length := by omega
    rw [hn, if_pos (by omega), if_neg h, epRelease_eq (by exact hsel)]
    have hne : s.cdcTx.cur ++ s.mem.bytes buf (s.cfg.size.cdcTx - s.cdcTx.cur.length) ≠ [] := by
      intro he
      have := congrArg List.length he
      simp only [List.length_append, Memory.bytes_length, List.length_nil] at this
      omega
    simp [State.inEp, State.setInEp, InEndpoint.release, hne, disarmFlush, afterFull]

/-- A pass of the loop with bytes to write, on the selected, writable endpoint. -/
theorem writeLoop_ready {s : State} (fuel : Nat) (saved : Bool) (buf size count : Nat) (hsel : s.sel = .cdcTx)
    (hs : 0 < size) (hw : writable .cdcTx s = true) :
    writeLoop (fuel + 1) saved buf size count s =
      if s.cdcTx.cur.length + size < s.cfg.size.cdcTx then
        writeLoop fuel saved (buf + size) 0 (count + size) (afterPartial buf size s)
      else
        let n := s.cfg.size.cdcTx - s.cdcTx.cur.length
        writeLoop fuel saved (buf + n) (size - n) (count + n) (afterFull buf s) := by
  have hroom := ((writable_cdcTx s).1 hw).2
  simp only [writeLoop, Nat.ne_of_gt hs, if_false]
  rw [waitHead_eq saved hsel, hw]
  simp only [if_true, ok_bind, writeAfterWait]
  rw [writeChunk_eq buf size hsel hw]
  simp only [ok_bind, chunkLen]
  split
  · have hn : min (s.cfg.size.cdcTx - s.cdcTx.cur.length) size = size := by omega
    rw [hn, Nat.sub_self]
  · have hn : min (s.cfg.size.cdcTx - s.cdcTx.cur.length) size = s.cfg.size.cdcTx - s.cdcTx.cur.length := by omega
    rw [hn]

/-- The loop with nothing left. -/
theorem writeLoop_done (fuel : Nat) (saved : Bool) (buf count : Nat) (s : State) :
    writeLoop fuel saved buf 0 count s = .ok (writeDone saved count s) := by
  cases fuel <;> simp [writeLoop]

/-- The loop on a full endpoint with bytes to write: it stops at the yield of its wait. -/
theorem writeLoop_blocked {s : State} (fuel : Nat) (saved : Bool) (buf size count : Nat) (hsel : s.sel = .cdcTx)
    (hs : 0 < size) (hw : writable .cdcTx s = false) :
    writeLoop (fuel + 1) saved buf size count s =
      .ok { csExit saved s with phase := .serWait buf size count s.frame } := by
  simp only [writeLoop, Nat.ne_of_gt hs, if_false]
  rw [waitHead_eq saved hsel, hw]
  rfl

/-- The framer's result: the endpoint and deadline after the bytes `bs` have gone through. -/
def framed (bs : List Byte) (s : State) : State :=
  { s with
    cdcTx := { s.cdcTx with
      cur := packetRest s.cfg.size.cdcTx bs
      released := s.cdcTx.released ++ fullPackets s.cfg.size.cdcTx bs }
    flushRemaining := if packetRest s.cfg.size.cdcTx bs = [] then none else some s.cfg.txFlush }

/-- Everything fits: the loop ends with the stream framed (R158). -/
theorem writeLoop_fits (fuel : Nat) (saved : Bool) (buf size count : Nat) (s : State) (hsel : s.sel = .cdcTx)
    (hfuel : size ≤ fuel) (hs : 0 < size) (hroom : s.cdcTx.cur.length < s.cfg.size.cdcTx)
    (hcap : s.cdcTx.cur.length + size ≤ (s.cfg.banks.cdcTx - s.cdcTx.released.length) * s.cfg.size.cdcTx) :
    writeLoop fuel saved buf size count s =
      .ok (writeDone saved (count + size) (framed (s.cdcTx.cur ++ s.mem.bytes buf size) s)) := by
  induction fuel generalizing buf size count s with
  | zero => omega
  | succ fuel ih =>
    have hfree : s.cdcTx.released.length < s.cfg.banks.cdcTx := by
      by_contra hno
      rw [Nat.sub_eq_zero_of_le (Nat.not_lt.1 hno), Nat.zero_mul] at hcap
      omega
    have hpos : 0 < s.cfg.size.cdcTx := by omega
    have hw : writable .cdcTx s = true := (writable_cdcTx s).2 ⟨hfree, hroom⟩
    rw [writeLoop_ready fuel saved buf size count hsel hs hw]
    split
    · rename_i hlt
      have hl : (s.cdcTx.cur ++ s.mem.bytes buf size).length < s.cfg.size.cdcTx := by
        simpa using hlt
      have hne : s.cdcTx.cur ++ s.mem.bytes buf size ≠ [] := by
        intro he
        have := congrArg List.length he
        simp only [List.length_append, Memory.bytes_length, List.length_nil] at this
        omega
      rw [writeLoop_done]
      simp [framed, afterPartial, fullPackets_short hl, packetRest_short hl, hne]
    · rename_i hge
      have hge := Nat.not_lt.1 hge
      have hsplit : s.mem.bytes buf size =
          s.mem.bytes buf (s.cfg.size.cdcTx - s.cdcTx.cur.length) ++
            s.mem.bytes (buf + (s.cfg.size.cdcTx - s.cdcTx.cur.length))
              (size - (s.cfg.size.cdcTx - s.cdcTx.cur.length)) := by
        rw [← Memory.bytes_add, Nat.add_sub_cancel' (by omega)]
      have hlen : s.cfg.size.cdcTx ≤ (s.cdcTx.cur ++ s.mem.bytes buf size).length := by simpa using hge
      have hpre : (s.cdcTx.cur ++ s.mem.bytes buf (s.cfg.size.cdcTx - s.cdcTx.cur.length)).length =
          s.cfg.size.cdcTx := by
        simp only [List.length_append, Memory.bytes_length]
        omega
      have hfull : fullPackets s.cfg.size.cdcTx (s.cdcTx.cur ++ s.mem.bytes buf size) =
          (s.cdcTx.cur ++ s.mem.bytes buf (s.cfg.size.cdcTx - s.cdcTx.cur.length)) ::
            fullPackets s.cfg.size.cdcTx (s.mem.bytes (buf + (s.cfg.size.cdcTx - s.cdcTx.cur.length))
              (size - (s.cfg.size.cdcTx - s.cdcTx.cur.length))) := by
        rw [fullPackets_full hpos hlen, hsplit, ← List.append_assoc, List.take_left' hpre, List.drop_left' hpre]
      have hrest : packetRest s.cfg.size.cdcTx (s.cdcTx.cur ++ s.mem.bytes buf size) =
          packetRest s.cfg.size.cdcTx (s.mem.bytes (buf + (s.cfg.size.cdcTx - s.cdcTx.cur.length))
              (size - (s.cfg.size.cdcTx - s.cdcTx.cur.length))) := by
        rw [packetRest_full hpos hlen, hsplit, ← List.append_assoc, List.drop_left' hpre]
      by_cases hz : size - (s.cfg.size.cdcTx - s.cdcTx.cur.length) = 0
      · have hcount : count + (s.cfg.size.cdcTx - s.cdcTx.cur.length) = count + size := by omega
        simp only [hz, writeLoop_done, hcount]
        rw [hz] at hfull hrest
        simp only [framed, hfull, hrest]
        have : (List.length ([] : List Byte)) < s.cfg.size.cdcTx := hpos
        simp [Memory.bytes, fullPackets_short this, packetRest_short this, afterFull]
      · have hmul : s.cfg.banks.cdcTx - s.cdcTx.released.length =
            (s.cfg.banks.cdcTx - (s.cdcTx.released.length + 1)) + 1 := by omega
        rw [hmul, Nat.succ_mul] at hcap
        have := ih (buf + (s.cfg.size.cdcTx - s.cdcTx.cur.length)) (size - (s.cfg.size.cdcTx - s.cdcTx.cur.length))
          (count + (s.cfg.size.cdcTx - s.cdcTx.cur.length)) (afterFull buf s) hsel (by omega) (by omega)
          (by simpa [afterFull] using hpos) (by
            simp only [afterFull, List.length_nil, List.length_append, List.length_cons, Nat.zero_add]
            omega)
        simp only [this]
        have hcount : count + (s.cfg.size.cdcTx - s.cdcTx.cur.length) +
            (size - (s.cfg.size.cdcTx - s.cdcTx.cur.length)) = count + size := by omega
        rw [hcount]
        have hrest' : packetRest s.cfg.size.cdcTx (s.cdcTx.cur ++ s.mem.bytes buf size) =
            packetRest (afterFull buf s).cfg.size.cdcTx ((afterFull buf s).cdcTx.cur ++
              (afterFull buf s).mem.bytes (buf + (s.cfg.size.cdcTx - s.cdcTx.cur.length))
                (size - (s.cfg.size.cdcTx - s.cdcTx.cur.length))) := hrest
        unfold framed
        rw [hrest', hfull]
        simp [afterFull]

/-- The state when the free banks have been filled with `cap` bytes from `buf`. -/
def filled (buf cap : Nat) (s : State) : State :=
  { s with
    cdcTx := { s.cdcTx with
      cur := []
      released := s.cdcTx.released ++ fullPackets s.cfg.size.cdcTx (s.cdcTx.cur ++ s.mem.bytes buf cap) }
    flushRemaining := if cap = 0 then s.flushRemaining else none }

/-- More to write than the free banks hold: they are filled and the loop stops at the yield of its wait (R159). -/
theorem writeLoop_fills (fuel : Nat) (saved : Bool) (buf size count cap : Nat) (s : State) (hsel : s.sel = .cdcTx)
    (hfuel : size ≤ fuel) (hroom : s.cdcTx.cur.length < s.cfg.size.cdcTx)
    (hbanks : s.cdcTx.released.length ≤ s.cfg.banks.cdcTx)
    (hfull : s.cdcTx.released.length = s.cfg.banks.cdcTx → s.cdcTx.cur = [])
    (hcap : cap + s.cdcTx.cur.length = (s.cfg.banks.cdcTx - s.cdcTx.released.length) * s.cfg.size.cdcTx)
    (hmore : cap < size) :
    writeLoop fuel saved buf size count s =
      .ok { csExit saved (filled buf cap s) with phase := .serWait (buf + cap) (size - cap) (count + cap) s.frame } := by
  induction fuel generalizing buf size count cap s with
  | zero => omega
  | succ fuel ih =>
    have hpos : 0 < s.cfg.size.cdcTx := by omega
    by_cases hb : s.cdcTx.released.length = s.cfg.banks.cdcTx
    · have hcur := hfull hb
      have hc0 : cap = 0 := by
        rw [hb, Nat.sub_self, Nat.zero_mul] at hcap
        omega
      subst hc0
      have hw : writable .cdcTx s = false := by
        rw [Bool.eq_false_iff]
        intro hw
        have := ((writable_cdcTx s).1 hw).1
        omega
      rw [writeLoop_blocked fuel saved buf size count hsel (by omega) hw]
      have : (List.length ([] : List Byte)) < s.cfg.size.cdcTx := hpos
      have hcd : s.cdcTx = ⟨[], s.cdcTx.released, s.cdcTx.hostLog⟩ := by
        rw [← hcur]
      have hfill : filled buf 0 s = s := by
        unfold filled
        simp only [hcur, Memory.bytes, List.range_zero, List.map_nil, fullPackets_short this,
          List.append_nil, if_true, ← hcd]
      simp [hfill]
    · have hfree : s.cdcTx.released.length < s.cfg.banks.cdcTx := by omega
      have hw : writable .cdcTx s = true := (writable_cdcTx s).2 ⟨hfree, hroom⟩
      have hmul : s.cfg.banks.cdcTx - s.cdcTx.released.length =
          (s.cfg.banks.cdcTx - (s.cdcTx.released.length + 1)) + 1 := by omega
      rw [hmul, Nat.succ_mul] at hcap
      rw [writeLoop_ready fuel saved buf size count hsel (by omega) hw, if_neg (by omega)]
      have hstep := ih (buf + (s.cfg.size.cdcTx - s.cdcTx.cur.length)) (size - (s.cfg.size.cdcTx - s.cdcTx.cur.length))
        (count + (s.cfg.size.cdcTx - s.cdcTx.cur.length)) (cap - (s.cfg.size.cdcTx - s.cdcTx.cur.length))
        (afterFull buf s) hsel (by omega) (by simpa [afterFull] using hpos)
        (by simp only [afterFull, List.length_append, List.length_cons, List.length_nil, Nat.zero_add]; omega)
        (fun _ => rfl)
        (by simp only [afterFull, List.length_append, List.length_cons, List.length_nil, Nat.zero_add]; omega)
        (by omega)
      simp only [hstep]
      have hsplit : s.mem.bytes buf cap =
          s.mem.bytes buf (s.cfg.size.cdcTx - s.cdcTx.cur.length) ++
            s.mem.bytes (buf + (s.cfg.size.cdcTx - s.cdcTx.cur.length))
              (cap - (s.cfg.size.cdcTx - s.cdcTx.cur.length)) := by
        rw [← Memory.bytes_add, Nat.add_sub_cancel' (by omega)]
      have hlen : s.cfg.size.cdcTx ≤ (s.cdcTx.cur ++ s.mem.bytes buf cap).length := by
        simp only [List.length_append, Memory.bytes_length]
        omega
      have hpre : (s.cdcTx.cur ++ s.mem.bytes buf (s.cfg.size.cdcTx - s.cdcTx.cur.length)).length =
          s.cfg.size.cdcTx := by
        simp only [List.length_append, Memory.bytes_length]
        omega
      have hpk : fullPackets s.cfg.size.cdcTx (s.cdcTx.cur ++ s.mem.bytes buf cap) =
          (s.cdcTx.cur ++ s.mem.bytes buf (s.cfg.size.cdcTx - s.cdcTx.cur.length)) ::
            fullPackets s.cfg.size.cdcTx (s.mem.bytes (buf + (s.cfg.size.cdcTx - s.cdcTx.cur.length))
              (cap - (s.cfg.size.cdcTx - s.cdcTx.cur.length))) := by
        rw [fullPackets_full hpos hlen, hsplit, ← List.append_assoc, List.take_left' hpre, List.drop_left' hpre]
      have e1 : buf + (s.cfg.size.cdcTx - s.cdcTx.cur.length) + (cap - (s.cfg.size.cdcTx - s.cdcTx.cur.length)) =
          buf + cap := by omega
      have e2 : size - (s.cfg.size.cdcTx - s.cdcTx.cur.length) - (cap - (s.cfg.size.cdcTx - s.cdcTx.cur.length)) =
          size - cap := by omega
      have e3 : count + (s.cfg.size.cdcTx - s.cdcTx.cur.length) + (cap - (s.cfg.size.cdcTx - s.cdcTx.cur.length)) =
          count + cap := by omega
      have hc0 : cap ≠ 0 := by omega
      simp [e1, e2, e3, filled, hpk, afterFull, csExit, hc0]

end Sys2Proof.Machine
end

