-- ==== Sys2Proof/Laws/Exec.lean ====
section
/-! SUPPORT. What a MAIN step of a sending command can do, said once and with no premise: the HID send as one equation,
and the write loop as one description of its end state. -/

namespace Sys2Proof.Machine

/-! ## HID sends -/

/-- The state after `Select ; EpAppend ; EpRelease` of a report, whatever the bank held. -/
def hidAppended (e : InEp) (report : List Byte) (s : State) : State :=
  ({ s with sel := e.toEndpoint }).setInEp e ((s.inEp e).append report).release

theorem hidAfterWait_ready_eq (e : InEp) (report : List Byte) (stage start : Nat) (k : State → State) (s : State)
    (hw : writable e s = true) :
    hidAfterWait e report stage start k (.ready s.ie (enterSelect e.toEndpoint s)) =
      if (s.inEp e).cur.length + report.length ≤ s.cfg.size.at e then .ok (k (hidAppended e report s))
      else .error (.broken .appendPrecondition) := by
  have h1 : writable e (enterSelect e.toEndpoint s) = true := by simpa using hw
  have h2 : ((enterSelect e.toEndpoint s).inEp e) = s.inEp e := by simp [enterSelect]
  have h3 : (enterSelect e.toEndpoint s).cfg = s.cfg := rfl
  simp only [hidAfterWait]
  split
  · rename_i hl
    rw [epAppend_eq rfl h1 (by rw [h2, h3]; exact hl)]
    simp only [ok_bind]
    rw [epRelease_eq (by simp)]
    simp only [ok_bind, pure_eq_ok, inEp_setInEp, h2]
    cases e <;> rfl
  · rename_i hl
    unfold epAppend
    rw [checkSel_eq (enterSelect_sel _ _), h1, h2, h3]
    simp [hl]

/-- `HidSend` from its first line. -/
theorem hidSend_eq (e : InEp) (report : List Byte) (stage : Nat) (k : State → State) (s : State) :
    hidSend e report stage k s =
      if linkUsable s = false then .ok (k s)
      else if writable e s = false then .ok { s with sel := e.toEndpoint, phase := .hidWait stage s.frame }
      else if (s.inEp e).cur.length + report.length ≤ s.cfg.size.at e then .ok (k (hidAppended e report s))
      else .error (.broken .appendPrecondition) := by
  unfold hidSend
  rw [waitEnter_eq]
  cases hl : linkUsable s
  · simp
  · cases hw : writable e s
    · simp [hidAfterWait, select]
    · simp only [if_true, ok_bind, hidAfterWait_ready_eq e report stage s.frame k s hw, Bool.true_eq_false, if_false]

/-- `HidSend` from the yield of its wait. -/
theorem hidResume_eq (e : InEp) (report : List Byte) (stage start : Nat) (k : State → State) (s : State) :
    hidResume e report stage start k s =
      if linkUsable s = false ∨ s.cfg.hidTimeout ≤ subMod s.cfg.frameBits s.frame start then .ok (k s)
      else if writable e s = false then .ok { s with sel := e.toEndpoint, phase := .hidWait stage start }
      else if (s.inEp e).cur.length + report.length ≤ s.cfg.size.at e then .ok (k (hidAppended e report s))
      else .error (.broken .appendPrecondition) := by
  unfold hidResume
  rw [waitResume_eq]
  cases hl : linkUsable s
  · simp [hidAfterWait]
  · by_cases ht : s.cfg.hidTimeout ≤ subMod s.cfg.frameBits s.frame start
    · simp [ht, hidAfterWait]
    · cases hw : writable e s
      · simp [ht, hidAfterWait, select]
      · simp only [ht, Bool.true_eq_false, if_false, if_true, ok_bind, false_or,
          hidAfterWait_ready_eq e report stage start k s hw]

/-- On an empty bank with room, the report is the newest released packet. -/
theorem hidAppended_empty {e : InEp} {report : List Byte} {s : State} (hc : (s.inEp e).cur = []) (hr : report ≠ []) :
    hidAppended e report s = hidSent e report s := by
  cases e <;> simp_all [hidAppended, hidSent, InEndpoint.append, InEndpoint.release, State.setInEp, State.inEp]

/-! ## The write loop -/

/-- What the write loop can have done when it stops: the fields it may have written, the packets it released after those
before, and whether it ended the command or stopped at the yield of its wait with the remaining bytes. -/
structure Wrote (s t : State) (saved : Bool) (buf size count : Nat) : Prop where
  frame : t = { s with
    ie := saved, cdcTx := t.cdcTx, flushRemaining := t.flushRemaining, res := t.res, phase := t.phase, cix := t.cix }
  log : t.cdcTx.hostLog = s.cdcTx.hostLog
  packets : ∃ new, t.cdcTx.released = s.cdcTx.released ++ new
  stop : (t.phase = .idle ∧ t.cix = s.cix + 1 ∧ t.res = natResult (count + size)) ∨
    (t.cix = s.cix ∧ t.res = s.res ∧
      ∃ n, n < size ∧ t.phase = .serWait (buf + n) (size - n) (count + n) s.frame)

theorem Wrote.after {s s' t : State} {saved : Bool} {buf size count n : Nat} (hn : n ≤ size)
    (h : Wrote s' t saved (buf + n) (size - n) (count + n))
    (hs : s' = { s with cdcTx := s'.cdcTx, flushRemaining := s'.flushRemaining })
    (hl : s'.cdcTx.hostLog = s.cdcTx.hostLog) (hp : ∃ new, s'.cdcTx.released = s.cdcTx.released ++ new) :
    Wrote s t saved buf size count where
  frame := by
    rw [h.frame, hs]
  log := h.log.trans hl
  packets := by
    obtain ⟨a, ha⟩ := hp
    obtain ⟨b, hb⟩ := h.packets
    exact ⟨a ++ b, by rw [hb, ha, List.append_assoc]⟩
  stop := by
    have e1 : s'.cix = s.cix := by rw [hs]
    have e2 : s'.res = s.res := by rw [hs]
    have e3 : s'.frame = s.frame := by rw [hs]
    rcases h.stop with ⟨a, b, c⟩ | ⟨b, c, m, hm, d⟩
    · refine .inl ⟨a, b.trans (by rw [e1]), ?_⟩
      rw [c, show count + n + (size - n) = count + size by omega]
    · refine .inr ⟨b.trans e1, c.trans e2, n + m, by omega, ?_⟩
      rw [d, e3, show buf + n + m = buf + (n + m) by omega, show size - n - m = size - (n + m) by omega,
        show count + n + m = count + (n + m) by omega]

/-- On the selected endpoint the write loop always ends its step, and so. -/
theorem writeLoop_wrote (fuel : Nat) (saved : Bool) (buf size count : Nat) (s : State) (hsel : s.sel = .cdcTx)
    (hfuel : size ≤ fuel) : ∃ t, writeLoop fuel saved buf size count s = .ok t ∧ Wrote s t saved buf size count := by
  induction fuel generalizing buf size count s with
  | zero =>
    obtain rfl : size = 0 := by omega
    exact ⟨_, rfl, ⟨rfl, rfl, ⟨[], (List.append_nil _).symm⟩, .inl ⟨rfl, rfl, rfl⟩⟩⟩
  | succ fuel ih =>
    by_cases h0 : size = 0
    · subst h0
      exact ⟨_, writeLoop_done _ _ _ _ _, ⟨rfl, rfl, ⟨[], (List.append_nil _).symm⟩, .inl ⟨rfl, rfl, rfl⟩⟩⟩
    · have hpos : 0 < size := by omega
      cases hw : writable .cdcTx s
      · refine ⟨_, writeLoop_blocked fuel saved buf size count hsel hpos hw, ⟨rfl, rfl, ⟨[], (List.append_nil _).symm⟩, .inr ⟨rfl, rfl, 0, hpos, rfl⟩⟩⟩
      · have hroom := ((writable_cdcTx s).1 hw).2
        rw [writeLoop_ready fuel saved buf size count hsel hpos hw]
        split
        · obtain ⟨t, ht, hwr⟩ := ih (buf + size) 0 (count + size) (afterPartial buf size s) hsel (by omega)
          refine ⟨t, ht, Wrote.after (n := size) (s' := afterPartial buf size s) (Nat.le_refl _)
            (by rw [Nat.sub_self]; exact hwr) rfl rfl ⟨[], (List.append_nil _).symm⟩⟩
        · rename_i hge
          obtain ⟨t, ht, hwr⟩ := ih (buf + (s.cfg.size.cdcTx - s.cdcTx.cur.length))
            (size - (s.cfg.size.cdcTx - s.cdcTx.cur.length)) (count + (s.cfg.size.cdcTx - s.cdcTx.cur.length))
            (afterFull buf s) hsel (by omega)
          exact ⟨t, ht, Wrote.after (s' := afterFull buf s) (by omega) hwr rfl rfl ⟨_, rfl⟩⟩

/-- A wait that finds the endpoint writable goes on with the loop: with bytes left it is the loop again. -/
theorem writeAfterWait_ready {s : State} (fuel : Nat) (saved : Bool) (buf size count start : Nat)
    (hsel : s.sel = .cdcTx) (hs : 0 < size) (hw : writable .cdcTx s = true) :
    writeAfterWait (writeLoop fuel) buf size count start (.ready saved s) =
      writeLoop (fuel + 1) saved buf size count s := by
  simp only [writeLoop, Nat.ne_of_gt hs, if_false]
  rw [waitHead_eq saved hsel, hw]
  rfl

/-- The same, whatever is left: the step ends, and so. -/
theorem writeAfterWait_ready_wrote {s : State} (fuel : Nat) (saved : Bool) (buf size count start : Nat)
    (hsel : s.sel = .cdcTx) (hfuel : size ≤ fuel) (hw : writable .cdcTx s = true) :
    ∃ t, writeAfterWait (writeLoop fuel) buf size count start (.ready saved s) = .ok t ∧
      Wrote s t saved buf size count := by
  by_cases h0 : size = 0
  · subst h0
    have hroom := ((writable_cdcTx s).1 hw).2
    refine ⟨writeDone saved count (afterPartial buf 0 s), ?_,
      ⟨rfl, rfl, ⟨[], (List.append_nil _).symm⟩, .inl ⟨rfl, rfl, rfl⟩⟩⟩
    have hn : chunkLen s 0 = 0 := Nat.min_zero _
    simp only [writeAfterWait, writeChunk_eq buf 0 hsel hw, Nat.add_zero, hroom, if_true, ok_bind, hn, Nat.sub_zero]
    exact writeLoop_done _ _ _ _ _
  · rw [writeAfterWait_ready fuel saved buf size count start hsel (by omega) hw]
    exact writeLoop_wrote _ _ _ _ _ _ hsel (by omega)

/-- SER_WRITE from its first line: the bad buffer, the unusable link, the sticky timeout, and the loop. -/
theorem writeStart_eq (buf size : Nat) (s : State) :
    writeStart buf size s =
      if bufferBad s.cfg buf size = true then .error (.raise .badBuffer)
      else if linkUsable s = false then .ok (complete 0 (markWriteError s))
      else if s.txTimedOutPrev = false then writeLoop size s.ie buf size 0 (enterSelect .cdcTx s)
      else if writable .cdcTx s = true then writeLoop size s.ie buf size 0 (clearTimedOut (enterSelect .cdcTx s))
      else .ok (complete 0 (markWriteError (select .cdcTx s))) := by
  unfold writeStart
  simp only []
  rw [epWritable_eq (e := .cdcTx) (s := enterSelect .cdcTx s) rfl, writable_enterSelect]
  have h : (enterSelect .cdcTx s).txTimedOutPrev = s.txTimedOutPrev := rfl
  rw [h]
  cases bufferBad s.cfg buf size <;> cases linkUsable s <;> cases s.txTimedOutPrev <;> cases writable .cdcTx s <;> rfl

end Sys2Proof.Machine
end

