-- ==== Sys2Proof/Laws/Agents.lean ====
section
/-! SUPPORT. What a step of an agent other than MAIN can do, one lemma an agent, and what releasing and polling do to an
IN endpoint. -/

namespace Sys2Proof.Machine

/-! ## One endpoint -/

@[simp] theorem release_hostLog (p : InEndpoint) : p.release.hostLog = p.hostLog := by
  unfold InEndpoint.release
  split <;> rfl

@[simp] theorem release_cur (p : InEndpoint) : p.release.cur = [] := by
  unfold InEndpoint.release
  split
  · assumption
  · rfl

/-- A release adds at most the packet that was being filled. -/
theorem release_released (p : InEndpoint) :
    p.release.released = p.released ++ (if p.cur = [] then [] else [p.cur]) := by
  unfold InEndpoint.release
  split <;> simp [*]

@[simp] theorem append_hostLog (p : InEndpoint) (bs : List Byte) : (p.append bs).hostLog = p.hostLog := rfl

@[simp] theorem append_released (p : InEndpoint) (bs : List Byte) : (p.append bs).released = p.released := rfl

@[simp] theorem append_cur (p : InEndpoint) (bs : List Byte) : (p.append bs).cur = p.cur ++ bs := rfl

@[simp] theorem poll_cur (p : InEndpoint) : p.poll.cur = p.cur := by
  unfold InEndpoint.poll
  split <;> rfl

/-- A poll keeps every packet and their order. -/
@[simp] theorem poll_packets (p : InEndpoint) : p.poll.packets = p.packets := by
  unfold InEndpoint.poll InEndpoint.packets
  split <;> simp [*]

theorem poll_cons {p : InEndpoint} {packet : List Byte} {rest : List (List Byte)} (h : p.released = packet :: rest) :
    p.poll = { p with hostLog := p.hostLog ++ [packet], released := rest } := by
  simp [InEndpoint.poll, h]

/-! ## The agents -/

/-- At a phase that is no open sample no window is full. -/
theorem windowFull_of_closed {p : Phase} (h : p.openSample = none) : p.windowFull = false := by
  cases p <;> first | rfl | simp [Phase.openSample] at h

/-- At a phase that is no open sample a TIMER_HW step leaves the phase alone. -/
theorem noteTick_of_closed {p : Phase} (h : p.openSample = none) : p.noteTick = p := by
  cases p <;> first | rfl | simp [Phase.openSample] at h

/-- In an open sample the window is full once its tick has come. -/
theorem windowFull_of_open {p : Phase} {w : Sample} (h : p.openSample = some w) : p.windowFull = w.ticked := by
  cases p <;> simp_all [Phase.openSample, Phase.windowFull]

/-- A TIMER_HW step writes the counter, the overflow flag and the note in an open window. -/
theorem timerHwStep_eq (s : State) : timerHwStep s = { s with
    tcnt := if s.tcnt = s.cfg.tcntMax then 0 else s.tcnt + 1
    tov := if s.tcnt = s.cfg.tcntMax then true else s.tov
    phase := s.phase.noteTick } := by
  unfold timerHwStep countTick
  split <;> rfl

/-- A timer ISR step writes the clock counters and clears the overflow flag. -/
theorem timerIsrStep_eq (s : State) : timerIsrStep s = { s with
    tov := false
    ie := true
    microsCount := (onTimerTick s).microsCount
    millisCount := (onTimerTick s).millisCount
    fractionCount := (onTimerTick s).fractionCount } := rfl

/-- The three things an SOF ISR step can do: nothing armed, the deadline counted down, the partial packet released. -/
theorem sofIsrStep_cases (sel : Endpoint) (s : State) :
    (s.flushRemaining = none ∧ sofIsrStep sel s = { s with sofPending := false, ie := true, sel := sel }) ∨
    (∃ k, s.flushRemaining = some k ∧ 1 < k ∧ sofIsrStep sel s =
      { s with sofPending := false, ie := true, sel := sel, flushRemaining := some (k - 1) }) ∨
    (∃ k, s.flushRemaining = some k ∧ k ≤ 1 ∧ sofIsrStep sel s =
      { s with sofPending := false, ie := true, sel := sel, flushRemaining := none, cdcTx := s.cdcTx.release }) := by
  match hf : s.flushRemaining with
  | none =>
    refine .inl ⟨rfl, ?_⟩
    simp [sofIsrStep, flushService, hf, isrEnter, usbReturn, isrReturn, select]
  | some k =>
    by_cases hk : 1 < k
    · refine .inr (.inl ⟨k, rfl, hk, ?_⟩)
      simp [sofIsrStep, flushService, hf, hk, isrEnter, usbReturn, isrReturn, select]
    · refine .inr (.inr ⟨k, rfl, Nat.not_lt.1 hk, ?_⟩)
      unfold sofIsrStep flushService
      simp only [isrEnter, hf, hk, if_false]
      rw [epRelease_eq (by rfl)]
      rfl

/-- A link ISR step: the event's effect, `SEL` drawn, interrupts on. -/
theorem linkIsrStep_eq (event : LinkEvent) (sel : Endpoint) (s : State) :
    linkIsrStep event sel s = { linkEffect event s with sel := sel, ie := true } := by
  cases event <;> rfl

/-- A line-coding ISR step writes the line coding and `SEL`. -/
theorem lineIsrStep_eq (line : LineCoding) (sel : Endpoint) (s : State) :
    lineIsrStep line sel s = { s with line := line, sel := sel, ie := true } := rfl

/-- What an ISR step needs (R225). -/
theorem isrAllowed_iff (s : State) : isrAllowed s = true ↔ s.status = .running ∧ s.ie = true := by
  simp [isrAllowed]

end Sys2Proof.Machine
end

