-- ==== Sys2Proof/Laws/PerInstr.lean ====
section
/-! SUPPORT. Statements made for each command as a term: family CmdSelects, "`CMD` alone selects the command, and the
decoder reads no operand bit to choose it" (30_encoding.md R81). -/

namespace Sys2Proof.Laws.CmdSelects

/-- Whatever the operand registers hold, the command's `CMD` value decodes to a command of the same `CMD` value. -/
def Statement (i : Instr) : Prop :=
  ∀ a0 a1 : Word, ∃ j : Instr, decode ⟨(encode i).cmd, a0, a1⟩ = .ok j ∧ j.opcode = i.opcode

theorem millis : Statement (.millis) := by
  simp [Statement, encode, Instr.opcode, decode, unitOf, funcOf, decodeClock]
theorem micros : Statement (.micros) := by
  simp [Statement, encode, Instr.opcode, decode, unitOf, funcOf, decodeClock]
theorem delay (ms : Word) : Statement (.delay ms) := by
  simp [Statement, encode, Instr.opcode, decode, unitOf, funcOf, decodeClock]
theorem delayUs (us : Word) : Statement (.delayUs us) := by
  simp [Statement, encode, Instr.opcode, decode, unitOf, funcOf, decodeClock]
theorem serAvailable : Statement (.serAvailable) := by
  simp [Statement, encode, Instr.opcode, decode, unitOf, funcOf, decodeSerial]
theorem serPeek : Statement (.serPeek) := by
  simp [Statement, encode, Instr.opcode, decode, unitOf, funcOf, decodeSerial]
theorem serRead : Statement (.serRead) := by
  simp [Statement, encode, Instr.opcode, decode, unitOf, funcOf, decodeSerial]
theorem serFlush : Statement (.serFlush) := by
  simp [Statement, encode, Instr.opcode, decode, unitOf, funcOf, decodeSerial]
theorem serWrite (buf size : Word) : Statement (.serWrite buf size) := by
  simp [Statement, encode, Instr.opcode, decode, unitOf, funcOf, decodeSerial]
theorem serSendNow : Statement (.serSendNow) := by
  simp [Statement, encode, Instr.opcode, decode, unitOf, funcOf, decodeSerial]
theorem serBaud : Statement (.serBaud) := by
  simp [Statement, encode, Instr.opcode, decode, unitOf, funcOf, decodeSerial]
theorem serStopbits : Statement (.serStopbits) := by
  simp [Statement, encode, Instr.opcode, decode, unitOf, funcOf, decodeSerial]
theorem serParitytype : Statement (.serParitytype) := by
  simp [Statement, encode, Instr.opcode, decode, unitOf, funcOf, decodeSerial]
theorem serNumbits : Statement (.serNumbits) := by
  simp [Statement, encode, Instr.opcode, decode, unitOf, funcOf, decodeSerial]
theorem serDtr : Statement (.serDtr) := by
  simp [Statement, encode, Instr.opcode, decode, unitOf, funcOf, decodeSerial]
theorem serRts : Statement (.serRts) := by
  simp [Statement, encode, Instr.opcode, decode, unitOf, funcOf, decodeSerial]
theorem serReady : Statement (.serReady) := by
  simp [Statement, encode, Instr.opcode, decode, unitOf, funcOf, decodeSerial]
theorem serGetWriteError : Statement (.serGetWriteError) := by
  simp [Statement, encode, Instr.opcode, decode, unitOf, funcOf, decodeSerial]
theorem kbSetModifier (v : Byte) : Statement (.kbSetModifier v) := by
  simp [Statement, encode, Instr.opcode, decode, unitOf, funcOf, decodeKeyboard]
theorem kbSetKey1 (v : Byte) : Statement (.kbSetKey1 v) := by
  simp [Statement, encode, Instr.opcode, decode, unitOf, funcOf, decodeKeyboard]
theorem kbSetKey2 (v : Byte) : Statement (.kbSetKey2 v) := by
  simp [Statement, encode, Instr.opcode, decode, unitOf, funcOf, decodeKeyboard]
theorem kbSetKey3 (v : Byte) : Statement (.kbSetKey3 v) := by
  simp [Statement, encode, Instr.opcode, decode, unitOf, funcOf, decodeKeyboard]
theorem kbSetKey4 (v : Byte) : Statement (.kbSetKey4 v) := by
  simp [Statement, encode, Instr.opcode, decode, unitOf, funcOf, decodeKeyboard]
theorem kbSetKey5 (v : Byte) : Statement (.kbSetKey5 v) := by
  simp [Statement, encode, Instr.opcode, decode, unitOf, funcOf, decodeKeyboard]
theorem kbSetKey6 (v : Byte) : Statement (.kbSetKey6 v) := by
  simp [Statement, encode, Instr.opcode, decode, unitOf, funcOf, decodeKeyboard]
theorem kbSendNow : Statement (.kbSendNow) := by
  simp [Statement, encode, Instr.opcode, decode, unitOf, funcOf, decodeKeyboard]
theorem kbReleaseAll : Statement (.kbReleaseAll) := by
  simp [Statement, encode, Instr.opcode, decode, unitOf, funcOf, decodeKeyboard]
theorem kbType (mod key : Byte) : Statement (.kbType mod key) := by
  simp [Statement, encode, Instr.opcode, decode, unitOf, funcOf, decodeKeyboard]
theorem msMove (x y wheel horiz : Byte) : Statement (.msMove x y wheel horiz) := by
  simp [Statement, encode, Instr.opcode, decode, unitOf, funcOf, decodeMouse]
theorem msPress (b : Byte) : Statement (.msPress b) := by
  simp [Statement, encode, Instr.opcode, decode, unitOf, funcOf, decodeMouse]
theorem msRelease (b : Byte) : Statement (.msRelease b) := by
  simp [Statement, encode, Instr.opcode, decode, unitOf, funcOf, decodeMouse]
theorem msClick (b : Byte) : Statement (.msClick b) := by
  simp [Statement, encode, Instr.opcode, decode, unitOf, funcOf, decodeMouse]
theorem msSetButtons (left right middle back forward : Bool) : Statement (.msSetButtons left right middle back forward) := by
  simp [Statement, encode, Instr.opcode, decode, unitOf, funcOf, decodeMouse]
theorem jsSetByte (idx : Word) (v : Byte) : Statement (.jsSetByte idx v) := by
  simp [Statement, encode, Instr.opcode, decode, unitOf, funcOf, decodeJoystick]
theorem jsSendNow : Statement (.jsSendNow) := by
  simp [Statement, encode, Instr.opcode, decode, unitOf, funcOf, decodeJoystick]
theorem sysReboot : Statement (.sysReboot) := by
  simp [Statement, encode, Instr.opcode, decode, unitOf, funcOf, decodeSystem]
theorem sysRestart : Statement (.sysRestart) := by
  simp [Statement, encode, Instr.opcode, decode, unitOf, funcOf, decodeSystem]
theorem csEnter : Statement (.csEnter) := by
  simp [Statement, encode, Instr.opcode, decode, unitOf, funcOf, decodeSystem]
theorem csExit (s : Bool) : Statement (.csExit s) := by
  simp [Statement, encode, Instr.opcode, decode, unitOf, funcOf, decodeSystem]

end Sys2Proof.Laws.CmdSelects
end

