-- ==== Sys2Proof/Tests/Slice0.lean ====
section
/-! SUPPORT. Tests: ill-formed commands, words written out from the encoding tables, vectors of 95_test_vectors.md (named
in each docstring), and a witness for the hypotheses of every obligation. -/

namespace Sys2Proof.Tests

open Sys2Proof Sys2Proof.Machine

/-! ## Start states (95_test_vectors.md section 0) -/

/-- L: reset, then boot. -/
def launch : State := boot State.reset

/-- LC: L, then CONFIGURE. -/
def linked : State := envStep (.link .configure .cdcTx) launch

/-- The state after one MAIN step of a command, none where the step stops. -/
def after (i : Instr) (s : State) : Option State :=
  match exec i s with
  | .next t => some t
  | .fault _ => none
  | .refused _ => none

/-- The state after one step, none where the machine stops. -/
def stepped (s : State) : Option State :=
  match step s with
  | .next t => some t
  | .fault _ => none
  | .refused _ => none

/-- One field of it. -/
def afterGet {α : Type} (i : Instr) (s : State) (f : State → α) : Option α := (after i s).map f

/-! ## Well-formedness -/

theorem test_wf_press : (Instr.msPress 0x20).wf = false ∧ (Instr.msPress 0x1F).wf = true := by decide
theorem test_wf_release : (Instr.msRelease 0x80).wf = false ∧ (Instr.msRelease 0x10).wf = true := by decide
theorem test_wf_click : (Instr.msClick 0x40).wf = false ∧ (Instr.msClick 0).wf = true := by decide

/-! ## Decoding: words written out from 30_encoding.md R81 to R83, unit in the upper four bits -/

theorem test_decode_clock : decode ⟨0b00000001#8, 7, 7⟩ = .ok .micros ∧ decode ⟨0b00000010#8, 5, 7⟩ = .ok (.delay 5) := by
  decide
theorem test_decode_serial : decode ⟨0b00010100#8, 0x12340100, 70⟩ = .ok (.serWrite 0x12340100 70) ∧
    decode ⟨0b00011101#8, 0, 0⟩ = .ok .serGetWriteError := by decide
/-- V-E1, V-E5. -/
theorem test_decode_keyboard : decode ⟨0b00101001#8, 0x102, 0x204⟩ = .ok (.kbType 0x02 0x04) ∧
    decode ⟨0b00100001#8, 0xFFFFFF04, 0⟩ = .ok (.kbSetKey1 0x04) := by decide
/-- V-E6, and the bytes of R192's example. -/
theorem test_decode_mouse : decode ⟨0b00110001#8, 0x000000E1, 0⟩ = .ok (.msPress 0x01) ∧
    decode ⟨0b00110000#8, 0x80FF0180, 0⟩ = .ok (.msMove 0x80 0x01 0xFF 0x80) := by decide
theorem test_decode_joystick : decode ⟨0b01000000#8, 3, 0x1FF⟩ = .ok (.jsSetByte 3 0xFF) := by decide
/-- V-E7. -/
theorem test_decode_system : decode ⟨0b01010011#8, 0xFFFFFFFE, 0⟩ = .ok (.csExit false) := by decide
/-- V-E2. -/
theorem test_decode_reserved :
    [0x04, 0x1E, 0x2A, 0x35, 0x42, 0x54, 0x60, 0xFF].map (decodeTableWord 8) = List.replicate 8 none := by decide
theorem test_table_word : decodeTableWord 8 0x27 = some .kbSendNow ∧ decodeTableWord 72 0x460000010014 = some (.serWrite 0x100 70) := by
  decide
/-- R83, R84: 39 of the 256 values of `CMD` are commands. -/
theorem test_opcode_count : ((List.range 256).filter fun n => (decodeTableWord 8 n).isSome).length = 39 := by decide

/-! ## Assembler -/

/-- V-E3, V-E4. -/
theorem test_assemble_mouse : Assembler.program "MS_MOVE -128, 1, -1, -128" = some [⟨0x30, 0x80FF0180, 0⟩] ∧
    Assembler.program "MS_SET_BUTTONS 0, 0, 1, 0, 1" = some [⟨0x34, 0x14, 0⟩] := by decide
/-- P1, positions 0 to 4, as text with its pseudo-instruction. -/
theorem test_assemble_tap : Assembler.program "KB_SET_MODIFIER 0x02 ; shift\nKB_TAP 0x04" =
    some [⟨0x20, 2, 0⟩, ⟨0x21, 4, 0⟩, ⟨0x27, 0, 0⟩, ⟨0x21, 0, 0⟩, ⟨0x27, 0, 0⟩] := by decide
theorem test_assemble_refuses : Assembler.program "MS_MOVE 128, 0, 0, 0" = none ∧ Assembler.program "DELAY" = none := by
  decide

/-! ## Stepping -/

/-- A placed command is latched and run at the very next step. -/
theorem test_step_placed :
    stepped (State.reset.withFetchWord 8 0x52) = some { launch with
      prog := [⟨0x52, 0, 0⟩], cmd := 0x52, ie := false, res := 1, cix := 1 } := by decide
/-- V-E2, R221. -/
theorem test_step_reserved :
    stepped (State.reset.withFetchWord 8 0x1E) = some { launch with
      prog := [⟨0x1E, 0, 0⟩], cmd := 0x1E, status := .faulted .illegalCmd } := by decide
/-- R262, then the end of an empty stream (R264). -/
theorem test_step_boot : step State.reset = .next launch ∧ step launch = .fault .streamEnd := ⟨rfl, rfl⟩

/-! ## Clock -/

/-- V-M1. -/
theorem test_millis : afterGet .millis { launch with microsCount := 128000, millisCount := 128 }
    (fun t => (t.res, t.ie)) = some (128, true) := by decide
/-- V-U2, V-U3, V-U5. -/
theorem test_micros_samples :
    afterGet .micros { launch with microsCount := 1024, tov := true, phase := .microsWindow ⟨true, 0, false⟩ }
      (·.res) = some 2048 ∧
    afterGet .micros { launch with microsCount := 1024, tov := true, phase := .microsWindow ⟨true, 255, false⟩ }
      (·.res) = some 2044 ∧
    afterGet .micros { launch with microsCount := 0xFFFFFC00, tov := true, phase := .microsWindow ⟨true, 1, false⟩ }
      (·.res) = some 4 := by decide
/-- V-U8: the wrap falls between the two samples. -/
theorem test_micros_race :
    (after .micros { launch with microsCount := 1024, tcnt := 255 }).bind
      (fun t => afterGet .micros (envStep .timerHw t) (fun u => (u.res, u.tov, u.tcnt, u.ie))) =
    some (2044, true, 0, true) := by decide
/-- V-M3, V-M4. -/
theorem test_delay_counts :
    afterGet (.delay 1) { launch with phase := .delayWindow ⟨true, 250, false⟩ 1 0 } (fun t => (t.res, t.cix, t.phase)) =
      some (0, 1, .idle) ∧
    afterGet (.delay 1) { launch with phase := .delayWindow ⟨true, 249, false⟩ 1 0 } (fun t => (t.cix, t.phase)) =
      some (0, .delayYield 1 0) := by decide
/-- V-M5: with interrupts off the difference wraps, and a millisecond is counted early. -/
theorem test_delay_wraps :
    afterGet (.delay 1) { launch with ie := false, tov := true, phase := .delayWindow ⟨false, 0, false⟩ 1 1824 }
      (fun t => (t.cix, t.ie)) = some (1, false) := by decide
/-- V-M6. -/
theorem test_delayUs : after (.delayUs 10) launch = some { launch with res := 0, cix := 1 } := by decide
/-- V-K3, V-K5. -/
theorem test_tick_carry :
    (fun t : State => (t.microsCount, t.millisCount, t.fractionCount)) (onTimerTick { launch with fractionCount := 122 }) =
      (1024, 2, 0) ∧
    (fun t : State => (t.microsCount, t.millisCount, t.fractionCount))
      (onTimerTick { launch with microsCount := 0xFFFFFC00, millisCount := 0xFFFFFFFF, fractionCount := 124 }) =
      (0, 1, 2) := by decide

/-! ## CDC receive -/

/-- S2.1, V-R8. -/
theorem test_available : afterGet .serAvailable { linked with rx := [[0x41, 0x42]] } (·.res) = some 2 ∧
    afterGet .serAvailable { linked with rx := [[0x41]], suspended := true } (·.res) = some 0 := by decide
/-- V-R6. -/
theorem test_available_held : afterGet .serAvailable { launch with peekByte := some 0x09 } (·.res) = some 1 := by decide
/-- V-R1. -/
theorem test_peek : afterGet .serPeek { linked with rx := [[0x41, 0x42]] } (fun t => (t.res, t.peekByte, t.rx)) =
    some (0x41, some 0x41, [[0x42]]) := by decide
/-- V-R5. -/
theorem test_peek_unlinked : afterGet .serPeek launch (fun t => (t.res, t.peekByte)) = some (0xFFFFFFFF, none) := by decide
/-- V-R3. -/
theorem test_read_retries : afterGet .serRead { linked with rx := [[], [0x7A]] } (fun t => (t.res, t.rx)) =
    some (0x7A, []) := by decide
/-- V-R4, V-R6. -/
theorem test_read_ends : afterGet .serRead linked (·.res) = some 0xFFFFFFFF ∧
    afterGet .serRead { launch with peekByte := some 0x09 } (fun t => (t.res, t.peekByte)) = some (0x09, none) := by decide
/-- S2.2, V-R9. -/
theorem test_flush :
    afterGet .serFlush { linked with rx := [[1, 2], [3]], peekByte := some 9 } (fun t => (t.rx, t.peekByte)) =
      some ([], none) ∧
    afterGet .serFlush { launch with rx := [[1]], peekByte := some 9 } (fun t => (t.rx, t.peekByte)) =
      some ([[1]], none) := by decide

/-! ## CDC transmit -/

/-- V-T6: the partial bank is filled first, released, and the deadline disarmed. -/
theorem test_write_fills :
    afterGet (.serWrite 0x300 58)
      { linked with cdcTx := ⟨List.replicate 6 1, [], []⟩, flushRemaining := some 3 }
      (fun t => (t.res, t.cdcTx.cur, t.cdcTx.released, t.flushRemaining)) =
    some (58, [], [List.replicate 6 1 ++ List.replicate 58 0], none) := by decide
/-- V-T7, V-T8. -/
theorem test_write_bounds :
    afterGet (.serWrite 0xFFF0 0x20) linked (fun t => (t.status, t.cix, t.writeError)) =
      some (.faulted .badBuffer, 0, false) ∧
    afterGet (.serWrite 0xFFFF 1) { linked with mem := [(0xFFFF, 0x7E)] } (fun t => (t.cdcTx.cur, t.res)) =
      some ([0x7E], 1) := by decide
/-- S3.4 after the write; V-T10. -/
theorem test_sendNow :
    afterGet .serSendNow { linked with cdcTx := ⟨[0x40, 0x41], [[0]], []⟩, flushRemaining := some 5 }
      (fun t => (t.cdcTx.cur, t.cdcTx.released, t.flushRemaining)) = some ([], [[0], [0x40, 0x41]], none) ∧
    afterGet .serSendNow { launch with cdcTx := ⟨[0x40], [], []⟩, flushRemaining := some 5 }
      (fun t => (t.cdcTx.cur, t.flushRemaining)) = some ([0x40], some 5) := by decide

/-! ## CDC accessors -/

/-- A line coding, for V-SA1 to V-SA3. -/
def coding : LineCoding := ⟨115200, 2, 0, 7, true, false⟩

theorem test_accessor_baud : afterGet .serBaud { linked with line := coding } (·.res) = some 0x0001C200 := by decide
theorem test_accessor_stopbits : afterGet .serStopbits { linked with line := coding } (·.res) = some 2 := by decide
theorem test_accessor_parity : afterGet .serParitytype { linked with line := coding } (·.res) = some 0 := by decide
theorem test_accessor_numbits : afterGet .serNumbits { linked with line := coding } (·.res) = some 7 := by decide
theorem test_accessor_dtr : afterGet .serDtr { launch with line := coding } (·.res) = some 1 := by decide
theorem test_accessor_rts : afterGet .serRts { launch with line := coding } (·.res) = some 0 := by decide
/-- V-SA4, V-SA5, V-SA6. -/
theorem test_accessor_ready : afterGet .serReady linked (·.res) = some 1 ∧
    afterGet .serReady { linked with cfg := { Config.suggested with readyRequiresDtr := true } } (·.res) = some 0 ∧
    afterGet .serReady { linked with suspended := true } (·.res) = some 0 := by decide
/-- S3.2, V-SA7. -/
theorem test_accessor_writeError : (after (.serWrite 0x100 10) launch).bind
    (fun t => afterGet .serGetWriteError t (fun u => (t.res, u.res))) = some (0, 1) := by decide

/-! ## Keyboard -/

/-- V-B1: every setter writes its own byte. -/
theorem test_kb_setters :
    [Instr.kbSetModifier 2, .kbSetKey1 4, .kbSetKey2 5, .kbSetKey3 6, .kbSetKey4 7, .kbSetKey5 8, .kbSetKey6 9].map
      (fun i => afterGet i linked (fun t => t.kb.toList)) =
    [some [2, 0, 0, 0, 0, 0, 0, 0], some [0, 0, 4, 0, 0, 0, 0, 0], some [0, 0, 0, 5, 0, 0, 0, 0],
     some [0, 0, 0, 0, 6, 0, 0, 0], some [0, 0, 0, 0, 0, 7, 0, 0], some [0, 0, 0, 0, 0, 0, 8, 0],
     some [0, 0, 0, 0, 0, 0, 0, 9]] := by decide
/-- V-B2, V-B4. -/
theorem test_kb_send : afterGet .kbSendNow { linked with kb := #v[2, 0, 4, 0, 0, 0, 0, 0] } (·.kbEp.released) =
    some [[2, 0, 4, 0, 0, 0, 0, 0]] ∧ afterGet .kbSendNow launch (fun t => (t.kbEp.released, t.cix)) = some ([], 1) := by
  decide
/-- V-B3: a full endpoint is waited for, and the report is dropped after 50 frames. -/
theorem test_kb_send_waits :
    afterGet .kbSendNow { linked with kbEp := ⟨[], [[1]], []⟩ } (·.phase) = some (.hidWait 1 0) ∧
    afterGet .kbSendNow { linked with kbEp := ⟨[], [[1]], []⟩, frame := 50, phase := .hidWait 1 0 }
      (fun t => (t.kbEp.released, t.cix, t.writeError)) = some ([[1]], 1, false) := by decide
/-- V-B5, S4.2. -/
theorem test_kb_release :
    afterGet .kbReleaseAll { linked with kb := #v[0, 0, 4, 0, 0, 0, 0, 0] } (fun t => (t.kb.toList, t.kbEp.released)) =
      some (List.replicate 8 0, [List.replicate 8 0]) ∧
    afterGet .kbReleaseAll linked (·.kbEp.released) = some [] := by decide
/-- V-B6, the second and the fourth report. -/
theorem test_kb_type :
    afterGet (.kbType 2 4) { linked with kb := #v[2, 0, 0, 0, 0, 0, 0, 0], phase := .hidYield 1 }
      (fun t => (t.kbEp.released, t.phase)) = some ([[2, 0, 4, 0, 0, 0, 0, 0]], .hidYield 2) ∧
    afterGet (.kbType 2 4) { linked with kb := #v[2, 0, 0, 0, 0, 0, 0, 0], phase := .hidYield 3 }
      (fun t => (t.kbEp.released, t.phase, t.cix)) = some ([List.replicate 8 0], .idle, 1) := by decide

/-! ## Mouse and joystick -/

/-- V-MS1. -/
theorem test_ms_move : afterGet (.msMove 0x80 1 0xFF 0x80) { linked with msButtons := 1 } (·.msEp.released) =
    some [[0x01, 0x81, 0x01, 0xFF, 0x81]] := by decide
/-- S5.1: the second press sends nothing. -/
theorem test_ms_press : afterGet (.msPress 1) linked (fun t => (t.msEp.released, t.msButtons)) =
    some ([[1, 0, 0, 0, 0]], 1) ∧
    afterGet (.msPress 1) { linked with msButtons := 1 } (·.msEp.released) = some [] := by decide
/-- V-MS4, V-MS5. -/
theorem test_ms_release : afterGet (.msRelease 1) { linked with msButtons := 3 } (fun t => (t.msEp.released, t.msButtons)) =
    some ([[2, 0, 0, 0, 0]], 2) ∧
    afterGet (.msRelease 4) { linked with msButtons := 3 } (fun t => (t.msEp.released, t.msButtons)) = some ([], 3) := by
  decide
/-- V-MS6. -/
theorem test_ms_click :
    afterGet (.msClick 1) { linked with msButtons := 2 } (fun t => (t.msEp.released, t.phase)) =
      some ([[1, 0, 0, 0, 0]], .hidYield 1) ∧
    afterGet (.msClick 1) { linked with msButtons := 1, phase := .hidYield 1 } (fun t => (t.msEp.released, t.msButtons)) =
      some ([[0, 0, 0, 0, 0]], 0) := by decide
/-- V-MS8. -/
theorem test_ms_setButtons : afterGet (.msSetButtons false false true false true) { linked with msButtons := 0x14 }
    (fun t => (t.msEp.released, t.msButtons)) = some ([[0x14, 0, 0, 0, 0]], 0x14) := by decide
/-- V-J1. -/
theorem test_js_set : afterGet (.jsSetByte 11 0x80) linked (fun t => (t.js.toList, t.res)) =
    some ([0, 0, 0, 0, 0, 0, 0, 0, 0, 0, 0, 0x80], 0) := by decide
/-- V-J3, V-J4. -/
theorem test_js_bad : after (.jsSetByte 12 0) linked = some { linked with status := .faulted .badOperand } ∧
    after (.jsSetByte 0xFFFFFFFF 0) linked = some { linked with status := .faulted .badOperand } := by decide
/-- R199's example. -/
theorem test_js_send : afterGet .jsSendNow linked (·.jsEp.released) = some [List.replicate 12 0] := by decide

/-! ## System -/

/-- V-Y3. -/
theorem test_reboot : after .sysReboot { linked with cix := 4, res := 9 } = some { linked with
    cix := 4, res := 9, ie := false, timerRunning := false, usbAttached := false, status := .rebooted 0 } := by decide
/-- V-Y4: the host may still take a packet. -/
theorem test_restart : afterGet .sysRestart { linked with kbEp := ⟨[], [[7]], []⟩ }
    (fun t => (t.status, t.ie, t.timerRunning, (envStep (.hostPoll .kb) t).kbEp.hostLog)) =
    some (.restarted 0, false, false, [[7]]) := by decide
/-- V-Y1. -/
theorem test_csEnter : afterGet .csEnter linked (fun t => (t.res, t.ie)) = some (1, false) ∧
    afterGet .csEnter { linked with ie := false } (fun t => (t.res, t.ie)) = some (0, false) := by decide
/-- V-Y1, V-Y2. -/
theorem test_csExit : afterGet (.csExit false) { linked with ie := false } (·.ie) = some false ∧
    afterGet (.csExit true) { linked with ie := false, tov := true } (fun t => (t.ie, timerIsrEnabled t)) =
      some (true, true) := by decide

/-! ## Other agents -/

/-- V-H4: the second overflow is lost. -/
theorem test_tick_lost : (fun t : State => (t.microsCount, t.millisCount, t.fractionCount, t.tov))
    (envStep .timerIsr (envStep .timerHw { launch with tcnt := 255, tov := true })) = (1024, 1, 3, false) := by decide
/-- V-T11: frames are coalesced, and one service counts one. -/
theorem test_sof_coalesces : (fun t : State => (t.flushRemaining, t.sofPending, t.frame))
    (envStep (.sofIsr .js) (envStep .frameHw (envStep .frameHw
      { linked with cdcTx := ⟨[1], [], []⟩, flushRemaining := some 5 }))) = (some 4, false, 2) := by decide
/-- V-T12. -/
theorem test_configure_empties : (fun t : State => (t.cdcTx.cur, t.flushRemaining, t.sel))
    (envStep (.link .configure .ms) { linked with cdcTx := ⟨[1], [], []⟩, flushRemaining := some 5 }) =
    ([], none, .ms) := by decide
/-- V-H5, V-H6: suspended, no frame and no poll; resumed, the packet is still there. -/
theorem test_suspend : frameHwEnabled { linked with suspended := true } = false ∧
    (envStep (.hostPoll .kb) { linked with suspended := true, kbEp := ⟨[], [[7]], []⟩ }).kbEp.hostLog = [] ∧
    (envStep (.hostPoll .kb) (envStep (.link .resume .kb)
      { linked with suspended := true, kbEp := ⟨[], [[7]], []⟩ })).kbEp.hostLog = [[7]] := by decide

/-! ## Witnesses: for each obligation with hypotheses, states and operands that meet them, each clause at a boundary -/

/-- A stream whose command is at position 0. -/
def running (c : Command) (s : State) : State := { s with prog := [c] }

theorem witness_DecodeEncodeAgree : (Instr.msClick 0x1F).wf = true ∧ (Instr.serWrite 0xFFFFFFFF 0xFFFFFFFF).wf = true := by
  decide
theorem witness_OpcodeMap : decode ⟨0x31, 0xFFFFFFFF, 0⟩ = .ok (.msPress 0x1F) := by decide
/-- Every end of a reserved range of R84. -/
theorem witness_ReservedCommandsFault :
    (∀ n ∈ [0x04, 0x0F, 0x1E, 0x1F, 0x2A, 0x2F, 0x35, 0x3F, 0x42, 0x4F, 0x54, 0x5F, 0x60, 0xFF],
      decodeTableWord 8 n = none) ∧
    (∀ n ∈ [0x03, 0x10, 0x1D, 0x20, 0x29, 0x30, 0x34, 0x40, 0x41, 0x50, 0x53], (decodeTableWord 8 n).isSome = true) ∧
    (let s := running ⟨0xFF, 0, 0⟩ launch
     s.status = .running ∧ s.booted = true ∧ s.phase = .idle ∧ s.sched = [] ∧ fetch s = some ⟨0xFF, 0, 0⟩) ∧
    { running ⟨0x04, 0, 0⟩ launch with sched := [.main] }.sched = [.main] := by
  decide
theorem witness_AssembledMouseOperands :
    Assembler.assemble "MS_MOVE" [-128, 127, -128, 127] = some ⟨0x30, 0x7F807F80, 0⟩ := by decide
theorem witness_StepRunsDecoded :
    (let s := running ⟨0x51, 0, 0⟩ launch
     s.status = .running ∧ s.booted = true ∧ fetch s = some ⟨0x51, 0, 0⟩ ∧ decode ⟨0x51, 0, 0⟩ = .ok .sysRestart ∧
       s.sched = [] ∧ s.phase = .idle) ∧
    (let s := { running ⟨0x01, 0, 0⟩ launch with phase := .microsWindow ⟨true, 3, false⟩, ie := false, sched := [.main] }
     s.status = .running ∧ s.booted = true ∧ fetch s = some ⟨0x01, 0, 0⟩ ∧ decode ⟨0x01, 0, 0⟩ = .ok .micros ∧
       s.sched = [.main] ∧ s.phase ≠ .idle) ∧
    envEnabled .timerHw launch = true ∧ envEnabled .timerIsr launch = false := by decide
theorem witness_PlacedWordRuns : decodeTableWord 8 0x53 = some (.csExit false) ∧
    decodeTableWord 72 0xFF0000000340 = some (.jsSetByte 3 0xFF) ∧ State.reset.booted = false ∧ launch.booted = true := by decide
/-- A completion, and a step to a yield. -/
theorem witness_CixAdvancesAtCompletion :
    exec .csEnter launch = .next { launch with ie := false, res := 1, cix := 1 } ∧
    exec .micros launch = .next { launch with ie := false, phase := .microsWindow ⟨true, 0, false⟩ } := ⟨rfl, rfl⟩
theorem witness_CallerMemory : Memory.wf [(0, 1), (0xFFFF, 2)] ∧ (stepped State.reset).isSome = true := by decide
theorem witness_ResetState : Config.suggested.WF ∧ Config.scenario1ms.WF ∧ 2047 < 2 ^ Config.suggested.frameBits ∧
    Memory.wf [(0xFFFF, 2)] ∧ ∀ b ∈ ([(0xFFFF, 2)] : Memory), b.1 < 2 ^ Config.suggested.addrBits := by decide
theorem witness_BootStep : State.reset.status = .running ∧ State.reset.booted = false ∧ State.reset.sched = [] ∧
    { State.reset with sched := [.main, .main] }.sched = [.main, .main] := by decide
/-- The premise `phase = idle` alone, of the statements about one-step commands. -/
theorem witness_idle : launch.phase = .idle ∧ linked.phase = .idle := by decide
/-- The ends of the range of `TCNT`; the window of MICROS and both windows of DELAY, without and with their tick. -/
theorem witness_MicrosSample :
    (let s := { launch with ie := false, tov := true, tcnt := 0, phase := .microsWindow ⟨true, 255, true⟩ }
     s.ie = false ∧ s.phase = .microsWindow ⟨true, 255, true⟩) ∧
    (let s := { launch with ie := false, tcnt := 255, phase := .delayFirst ⟨true, 255, false⟩ 0 }
     s.ie = false ∧ s.phase = .delayFirst ⟨true, 255, false⟩ 0 ∧ s.timerRunning = true ∧ s.status = .running) ∧
    (let s := { launch with ie := false, timerRunning := false, phase := .delayWindow ⟨true, 0, false⟩ 1 0 }
     s.ie = false ∧ s.phase = .delayWindow ⟨true, 0, false⟩ 1 0 ∧ s.timerRunning = false) ∧
    timerHwEnabled { launch with ie := false, phase := .microsWindow ⟨true, 0, false⟩ } = true := by decide

/-- 510 counts after boot, one tick counted. -/
def counted : State := { launch with microsCount := 1024, tcnt := 254, tov := false, fractionCount := 3, millisCount := 1 }

theorem witness_MicrosExact : counted.cfg.WF ∧
    (counted.tcnt = 510 % 2 ^ counted.cfg.tcntBits ∧
      counted.microsCount + (if counted.tov then BitVec.ofNat 32 counted.cfg.tickUs else 0) =
        BitVec.ofNat 32 (510 / 2 ^ counted.cfg.tcntBits * counted.cfg.tickUs)) ∧
    TickServiceBound counted ∧ counted.phase = .idle ∧ ClockTracks 510 counted := by
  refine ⟨by decide, by decide, ?_, rfl, by decide, by decide⟩
  unfold TickServiceBound
  decide
/-- The tick pending with the counter one short of its end: the bound still holds. -/
theorem witness_NoTickLostUnderBound :
    (let s := { launch with tov := true, tcnt := 254 }
     s.cfg.WF ∧ ClockTracks 510 s ∧ TickServiceBound s) ∧
    stepBy (.env .timerHw) counted = .next { counted with tcnt := 255 } := by
  refine ⟨⟨by decide, ⟨by decide, by decide⟩, ?_⟩, rfl⟩
  unfold TickServiceBound
  decide
/-- The four phases of DELAY; a difference of exactly 1000, and one of 996, the next lower value of the clock. -/
theorem witness_DelayLoop :
    { launch with phase := .delayFirst ⟨true, 0, false⟩ 0 }.phase = .delayFirst ⟨true, 0, false⟩ 0 ∧
    { launch with phase := .delayYield 1 0 }.phase = .delayYield 1 0 ∧
    (let s := { launch with phase := .delayWindow ⟨true, 250, false⟩ 1 0 }
     s.microsCount + BitVec.ofNat 32 (250 * (s.cfg.tickUs / 2 ^ s.cfg.tcntBits)) - 0 = 1000) ∧
    (let s := { launch with phase := .delayWindow ⟨true, 249, false⟩ 1 0 }
     s.microsCount + BitVec.ofNat 32 (249 * (s.cfg.tickUs / 2 ^ s.cfg.tcntBits)) - 0 = 996) := by decide
theorem witness_TimerIsrTick :
    (let s := { launch with tov := true, fractionCount := 121 }
     timerIsrEnabled s = true ∧ s.fractionCount + s.cfg.fractInc = 124 ∧ s.fractionCount + s.cfg.fractInc < s.cfg.fractMax) ∧
    (let s := { launch with tov := true, fractionCount := 122 }
     timerIsrEnabled s = true ∧ s.cfg.fractMax ≤ s.fractionCount + s.cfg.fractInc) ∧
    ({ launch with ie := false, tov := true }.ie = false) := by decide
theorem witness_CounterLaw : { launch with fractionCount := 124 }.cfg.WF ∧
    { launch with fractionCount := 124 }.fractionCount < launch.cfg.fractMax := by decide
theorem witness_MillisecondLaw : launch.cfg.WF ∧ launch.cfg.Exact ∧ launch.millisCount = 0 ∧ launch.fractionCount = 0 ∧
    4194303 * launch.cfg.tickUs < 2 ^ 32 ∧ Config.scenario1ms.Exact ∧
    { launch with cfg := Config.scenario1ms }.fractionCount < Config.scenario1ms.fractMax := by decide
/-- Both ends of the count, a stopped timer, and every phase that is no open sample. -/
theorem witness_TimerHwStep :
    (∀ p ∈ [Phase.idle, .delayYield 1 0, .serWait 0 1 0 0, .hidWait 1 0, .hidYield 1],
      { launch with phase := p, tcnt := 255 }.phase.openSample = none) ∧
    (let s := { launch with tcnt := 255, tov := true }
     s.phase = .idle ∧ s.timerRunning = true ∧ s.status = .running ∧ s.tcnt = 2 ^ s.cfg.tcntBits - 1 ∧
       s.tcnt = s.cfg.tcntMax ∧ s.ie = true) ∧
    { launch with tcnt := 254 }.tcnt ≠ 2 ^ launch.cfg.tcntBits - 1 ∧ State.reset.timerRunning = false := by decide
/-- A held byte; no link; only empty banks; a last byte behind an empty bank. For SER_PEEK and SER_READ. -/
theorem witness_SerReadResult :
    { launch with peekByte := some 0xFF }.peekByte = some 0xFF ∧
    (launch.peekByte = none ∧ linkUsable launch = false) ∧
    (linked.peekByte = none ∧ linkUsable linked = true ∧ { linked with rx := [[], []] }.rx.flatten = []) ∧
    rxNext { linked with rx := [[], [0x7A]] }.rx = (some 0x7A, []) ∧
    rxNext { linked with rx := [[1, 2], [3]] }.rx = (some 1, [[2], [3]]) := by decide
theorem witness_SerFlushDiscards : linkUsable linked = true ∧ linkUsable launch = false ∧
    linkUsable { linked with suspended := true } = false := by decide
/-- 1, 255 and 256 unread bytes. -/
theorem witness_PeekReadLaw :
    linked.phase = .idle ∧ linkUsable linked = true ∧ linked.peekByte = none ∧
    [[], [1]].flatten ≠ ([] : List Byte) ∧
    [List.replicate 250 (1 : Byte), [1, 2, 3, 4, 5]].flatten.length = 255 ∧
    255 < [List.replicate 250 (1 : Byte), [1, 2, 3, 4, 5, 6]].flatten.length := by
  simp only [List.flatten_cons, List.flatten_nil, List.length_append, List.length_replicate, List.length_cons,
    List.length_nil]
  decide
/-- One byte past the address space, and its last byte; every clause's link and endpoint. -/
theorem witness_SerWriteFailsFast :
    (0 < (0x10001 : Word).toNat ∧ 2 ^ launch.cfg.addrBits < (0 : Word).toNat % 2 ^ launch.cfg.addrBits + (0x10001 : Word).toNat) ∧
    ((0xFFFF : Word).toNat % 2 ^ launch.cfg.addrBits + (1 : Word).toNat ≤ 2 ^ launch.cfg.addrBits) ∧
    linkUsable launch = false ∧
    (let s := { linked with txTimedOutPrev := true, cdcTx := ⟨[], [[1], [2]], []⟩ }
     linkUsable s = true ∧ s.txTimedOutPrev = true ∧ writable .cdcTx s = false) ∧
    (let s := { linked with txTimedOutPrev := true }
     linkUsable s = true ∧ writable .cdcTx s = true) := by decide
/-- A full bank to come with one byte, in the last free bank, from the last byte of memory. -/
theorem witness_SerWriteFraming :
    let s := { linked with cdcTx := ⟨List.replicate 63 1, [[0]], []⟩ }
    s.phase = .idle ∧ linkUsable s = true ∧ 0 < (1 : Word).toNat ∧
    (0xFFFF : Word).toNat % 2 ^ s.cfg.addrBits + (1 : Word).toNat ≤ 2 ^ s.cfg.addrBits ∧
    s.cdcTx.cur.length < s.cfg.size.cdcTx ∧
    (s.cdcTx.cur ++ s.mem.bytes ((0xFFFF : Word).toNat % 2 ^ s.cfg.addrBits) (1 : Word).toNat).length ≤
      (s.cfg.banks.cdcTx - s.cdcTx.released.length) * s.cfg.size.cdcTx := by decide

/-- A SER_WRITE of 200 bytes waiting after 128, its endpoint full, `frames` after it began to wait. -/
def waiting (frames : Nat) : State :=
  { running ⟨0x14, 0x100, 200⟩ linked with
    cmd := 0x14, arg0 := 0x100, arg1 := 200, phase := .serWait 0x180 72 128 0, frame := frames, sel := .cdcTx
    cdcTx := ⟨[], [List.replicate 64 0, List.replicate 64 0], []⟩ }

/-- A KB_SEND_NOW waiting, its endpoint full. -/
def hidWaiting (frames : Nat) : State :=
  { running ⟨0x27, 0, 0⟩ linked with
    cmd := 0x27, phase := .hidWait 1 0, frame := frames, sel := .kb, kbEp := ⟨[], [List.replicate 8 0], []⟩ }

theorem witness_SerWriteWaitOutcomes :
    (waiting 25).phase = .serWait 0x180 72 128 0 ∧ linkUsable { waiting 25 with configured := false } = false ∧
    (linkUsable (waiting 25) = true ∧ (waiting 25).cfg.txTimeout ≤ subMod 11 (waiting 25).frame 0) ∧
    (subMod 11 (waiting 24).frame 0 < (waiting 24).cfg.txTimeout ∧ writable .cdcTx (waiting 24) = false) ∧
    (let s := { waiting 24 with cdcTx := .empty }
     linkUsable s = true ∧ subMod s.cfg.frameBits s.frame 0 < s.cfg.txTimeout ∧ 0 < (72 : Nat) ∧
       s.cdcTx.cur.length < s.cfg.size.cdcTx ∧
       (s.cdcTx.cur ++ s.mem.bytes 0x180 72).length ≤ (s.cfg.banks.cdcTx - s.cdcTx.released.length) * s.cfg.size.cdcTx) ∧
    (let s := { waiting 24 with phase := .serWait 0x187 65 135 0, cdcTx := ⟨[], [[0]], []⟩ }
     s.phase = .serWait 0x187 65 135 0 ∧ linkUsable s = true ∧
       subMod s.cfg.frameBits s.frame 0 < s.cfg.txTimeout ∧ writable .cdcTx s = true ∧
       (s.cfg.banks.cdcTx - s.cdcTx.released.length) * s.cfg.size.cdcTx - s.cdcTx.cur.length < 65) := by
  decide

/-- The invariant at a state: the clauses to decide, and those over every endpoint or with an existential. -/
theorem inv_linked : BlockInv linked where
  config := by decide
  fraction := by decide
  tcnt := by decide
  frame := by decide
  endpoints := by
    intro e
    cases e <;> exact ⟨by decide, by decide, by decide, nofun, nofun⟩
  rxFits := by decide
  rxBanks := by decide
  hidEmpty := by decide
  cdcPartial := by decide
  deadline := by intro k h; cases h
  buttons := by decide
  kbReserved := by decide
  memForm := by decide
  memRange := by decide
  latched := by decide
  phase := trivial

/-- The invariant holds inside a waiting command too. -/
theorem inv_waiting : BlockInv (waiting 24) where
  config := by decide
  fraction := by decide
  tcnt := by decide
  frame := by decide
  endpoints := by
    intro e
    cases e with
    | cdcTx =>
      refine ⟨by decide, by decide, by decide, ?_, nofun⟩
      show ∀ p ∈ [List.replicate 64 (0 : Byte), List.replicate 64 0], 1 ≤ p.length ∧ p.length ≤ 64
      decide
    | kb => exact ⟨by decide, by decide, by decide, nofun, nofun⟩
    | ms => exact ⟨by decide, by decide, by decide, nofun, nofun⟩
    | js => exact ⟨by decide, by decide, by decide, nofun, nofun⟩
  rxFits := by decide
  rxBanks := by decide
  hidEmpty := by decide
  cdcPartial := by decide
  deadline := by intro k h; cases h
  buttons := by decide
  kbReserved := by decide
  memForm := by decide
  memRange := by decide
  latched := by decide
  phase := ⟨⟨0x100, 200, by decide, by decide, by decide⟩, by decide, by decide, by decide⟩

/-- The phase of a write of 129 bytes at the top of memory: 128 accepted, one left. -/
def oneLeft : Phase := .serWait 0xFFFF 1 128 0

/-- A write of exactly the free room, 128 bytes, and one of 129, which stops at `oneLeft`; and a state at that phase that
has waited 25 frames, its endpoint full. -/
theorem witness_SerWriteBackpressure :
    BlockInv linked ∧ linked.phase = .idle ∧ linkUsable linked = true ∧ linked.txTimedOutPrev = false ∧
    (0xFF7F : Word).toNat % 2 ^ linked.cfg.addrBits + (129 : Word).toNat ≤ 2 ^ linked.cfg.addrBits ∧
    (linked.cfg.banks.cdcTx - linked.cdcTx.released.length) * linked.cfg.size.cdcTx - linked.cdcTx.cur.length = 128 ∧
    oneLeft = .serWait ((0xFF7F : Word).toNat % 2 ^ linked.cfg.addrBits + 128) ((129 : Word).toNat - 128) 128 linked.frame ∧
    (let u := { waiting 25 with phase := oneLeft }
     u.phase = oneLeft ∧ linkUsable u = true ∧ u.cfg.txTimeout ≤ subMod u.cfg.frameBits u.frame linked.frame ∧
       writable .cdcTx u = false) :=
  ⟨inv_linked, by decide, by decide, by decide, by decide, by decide, by decide, by decide⟩
theorem witness_SerWriteFrame : exec (.serWrite 0 0) launch =
    .next { launch with writeError := true, res := 0, cix := 1 } := rfl
theorem witness_SerSendNow :
    (let s := { linked with cdcTx := ⟨[1], [], []⟩, flushRemaining := some 1 }
     linkUsable s = true ∧ s.flushRemaining ≠ none ∧ s.cdcTx.cur ≠ []) ∧
    (let s := { linked with flushRemaining := some 5 }
     linkUsable s = true ∧ s.flushRemaining ≠ none ∧ s.cdcTx.cur = []) ∧ linked.flushRemaining = none := by decide
/-- The deadline at 1 with and without a partial packet, at 2, and disarmed. -/
theorem witness_SofIsrService :
    (let s := { linked with sofPending := true, cdcTx := ⟨[1], [], []⟩, flushRemaining := some 1 }
     s.status = .running ∧ s.ie = true ∧ s.sofPending = true ∧ s.flushRemaining = some 1 ∧ s.cdcTx.cur ≠ []) ∧
    (let s := { linked with sofPending := true, flushRemaining := some 1 }
     s.flushRemaining = some 1 ∧ s.cdcTx.cur = []) ∧
    { linked with sofPending := true, flushRemaining := some 2 }.flushRemaining = some 2 ∧
    { linked with sofPending := true }.flushRemaining = none := by decide
/-- The smallest deadline and the one a write arms. -/
theorem witness_FlushDeadlineReleases :
    ∀ k ∈ [1, Config.suggested.txFlush], let s := { linked with cdcTx := ⟨[1], [], []⟩, flushRemaining := some k }
      s.status = .running ∧ s.ie = true ∧ 1 ≤ k ∧ s.flushRemaining = some k ∧ s.cdcTx.cur ≠ [] := by decide
/-- The three ways of a send, on every HID endpoint; for the statements in terms of `HidOutcome`. -/
theorem witness_HidOutcome :
    linkUsable launch = false ∧ linkUsable linked = true ∧
    (∀ e ∈ [InEp.kb, .ms, .js], writable e (linked.setInEp e ⟨[], [[1]], []⟩) = false ∧ writable e linked = true ∧
      (linked.inEp e).cur = []) ∧
    linked.kb.toList.length = linked.cfg.size.kb ∧ linked.js.toList.length ≤ linked.cfg.size.js ∧
    [linked.msButtons, 0, 0, 0, 0].length ≤ linked.cfg.size.ms := by decide
/-- A pressed modifier alone, the last key alone, and none. -/
theorem witness_ReleaseAllSends :
    { linked with kb := #v[1, 0, 0, 0, 0, 0, 0, 0] }.kb[0] ≠ 0 ∧ { linked with kb := #v[0, 0, 0, 0, 0, 0, 0, 9] }.kb[7] ≠ 0 ∧
    linked.kb[0] = 0 ∧ linked.kb[2] = 0 ∧ linked.kb[3] = 0 ∧ linked.kb[4] = 0 ∧ linked.kb[5] = 0 ∧ linked.kb[6] = 0 ∧
    linked.kb[7] = 0 := by decide
theorem witness_TypeSequence :
    ∀ n ∈ [1, 2, 3], { linked with phase := .hidYield n }.phase = .hidYield n := by decide
theorem witness_MouseButtons :
    linked.msButtons ||| 0x10 ≠ linked.msButtons ∧
    { linked with msButtons := 0x1F }.msButtons ||| 0x10 = { linked with msButtons := 0x1F }.msButtons ∧
    { linked with msButtons := 0x1F }.msButtons &&& ~~~0x10 ≠ { linked with msButtons := 0x1F }.msButtons ∧
    linked.msButtons &&& ~~~0x10 = linked.msButtons := by decide
theorem witness_HidWaitOutcomes :
    hidChannel .kbSendNow = some .kb ∧ (hidWaiting 50).phase = .hidWait 1 0 ∧ 1 ≤ sendCount .kbSendNow ∧
    linkUsable { hidWaiting 50 with configured := false } = false ∧
    (hidWaiting 50).cfg.hidTimeout ≤ subMod 11 (hidWaiting 50).frame 0 ∧
    (linkUsable (hidWaiting 49) = true ∧ subMod 11 (hidWaiting 49).frame 0 < (hidWaiting 49).cfg.hidTimeout ∧
      writable .kb (hidWaiting 49) = false) ∧
    (let s := { hidWaiting 49 with kbEp := .empty }
     writable .kb s = true ∧ (s.inEp .kb).cur = [] ∧ (hidReport .kbSendNow .kb s).length ≤ s.cfg.size.at .kb) := by decide
/-- 24 frames gone and one more to come; the same at 49; and the last value before the counter's range. -/
theorem witness_WaitEndsAtDeadline :
    (waiting 24).cfg.txTimeout ≤ subMod 11 (waiting 24).frame 0 + frameCount [.frameHw] (waiting 24) ∧
    (hidWaiting 49).cfg.hidTimeout ≤ subMod 11 (hidWaiting 49).frame 0 + frameCount [.frameHw] (hidWaiting 49) ∧
    subMod 11 (waiting 2046).frame 0 + frameCount [.frameHw] (waiting 2046) < 2 ^ (waiting 2046).cfg.frameBits ∧
    hidChannel .kbSendNow = some .kb := by decide
theorem witness_KeyTapLaw : BlockInv linked ∧ linked.phase = .idle ∧ busUp linked = true ∧ linked.kbEp.released = [] ∧
    linked.msEp.released = [] ∧ linked.msButtons = 0 := ⟨inv_linked, by decide, by decide, by decide, by decide, by decide⟩
theorem witness_JoystickByte : (11 : Word).toNat < 12 ∧ 12 ≤ (12 : Word).toNat ∧ 12 ≤ (0xFFFFFFFF : Word).toNat := by decide
theorem witness_CommandsRestoreIe : changesIe .micros = false ∧
    exec .micros launch = .next { launch with ie := false, phase := .microsWindow ⟨true, 0, false⟩ } := ⟨rfl, rfl⟩
theorem witness_FaultsArePrecise : launch.status = .running ∧
    exec (.jsSetByte 12 0) launch = .next { launch with status := .faulted .badOperand } ∧
    exec (.serWrite 0xFFFF 2) launch = .next { launch with status := .faulted .badBuffer } := ⟨rfl, rfl, rfl⟩
theorem witness_StoppedBlock :
    ∀ st ∈ [RunStatus.faulted .badBuffer, .rebooted 0, .restarted 0],
      { linked with status := st }.status ≠ .running ∧ { linked with status := st, sched := [.main] }.sched = [.main] ∧
      busUp { linked with status := st } = true ∧ ({ linked with status := st }.inEp .kb).released = [] ∧
      ({ linked with status := st, kbEp := ⟨[], [[7]], []⟩ }.inEp .kb).released = [[7]] ∧
      busUp { launch with status := st } = false := by
  decide
/-- A delivery of a whole bank into the last free bank; a full FIFO; a packet one byte too long. -/
theorem witness_HostAndFrameSteps :
    (linked.usbAttached = true ∧ linked.suspended = false ∧ linked.status = .running) ∧
    { linked with suspended := true }.suspended = true ∧ busUp linked = true ∧ busUp launch = false ∧
    ({ linked with kbEp := ⟨[], [[1]], []⟩ }.inEp .kb).released = [[1]] ∧
    ({ linked with rx := [[]] }.rx.length < linked.cfg.banks.cdcRx ∧ (List.replicate 64 (0 : Byte)).length ≤ linked.cfg.size.cdcRx) ∧
    linked.cfg.banks.cdcRx ≤ { linked with rx := [[], []] }.rx.length ∧
    linked.cfg.size.cdcRx < (List.replicate 65 (0 : Byte)).length := by decide
theorem witness_TerminalCommands : busUp linked = true ∧
    ({ linked with kbEp := ⟨[], [[7]], []⟩ }.inEp .kb).released ≠ [] := by decide
/-- Each link event enabled, and each of its conditions failing. -/
theorem witness_LinkEvents : launch.status = .running ∧ launch.ie = true ∧ launch.usbAttached = true ∧
    launch.suspended = false ∧ launch.configured = false ∧ linked.configured = true ∧
    { linked with suspended := true }.suspended = true ∧ { launch with usbAttached := false }.usbAttached = false ∧
    exec .csEnter launch = .next { launch with ie := false, res := 1, cix := 1 } :=
  ⟨rfl, rfl, rfl, rfl, rfl, rfl, rfl, rfl, rfl⟩
theorem witness_IsrOnlyWhenEnabled : { launch with ie := false }.ie = false ∧
    { launch with status := .restarted 0 }.status ≠ .running ∧ launch.tov = false ∧ launch.sofPending = false ∧
    State.reset.usbAttached = false := by decide
/-- A MAIN step, and a step of another agent that is neither a poll nor a CONFIGURE. -/
theorem witness_PacketsAreFifo : exec .kbSendNow launch = .next { launch with res := 0, cix := 1 } ∧
    (∀ p, EnvStep.sofIsr .kb ≠ .hostPoll p) ∧ ∀ sel, EnvStep.sofIsr .kb ≠ .link .configure sel :=
  ⟨rfl, nofun, nofun⟩
/-- States inside and between commands that meet the invariant, and step. -/
theorem witness_StepKeepsInvariant : BlockInv linked ∧ BlockInv (waiting 24) ∧ (stepped (waiting 24)).isSome = true :=
  ⟨inv_linked, inv_waiting, by decide⟩
/-- Both stops are reached from such states. -/
theorem witness_StepNeverBreaks : BlockInv linked ∧ step linked = .fault .streamEnd ∧
    step { linked with status := .restarted 0 } = .fault (.halted (.restarted 0)) := ⟨inv_linked, rfl, rfl⟩
theorem witness_SelNeverMatters : exec .serAvailable linked = .next { linked with sel := .cdcRx, res := 0, cix := 1 } := rfl

/-! ### A fair run that goes on: the agents in turn, at the end of an empty stream -/

/-- The agents in turn. -/
def inTurn (n : Nat) : AgentStep :=
  match n % 5 with
  | 0 => .main
  | 1 => .env .timerHw
  | 2 => .env .timerIsr
  | 3 => .env .frameHw
  | _ => .env (.sofIsr .cdcTx)

/-- No scheduled step of another agent moves MAIN's position or the run status. -/
theorem envStep_main (e : EnvStep) (s : State) :
    (envStep e s).status = s.status ∧ (envStep e s).prog = s.prog ∧ (envStep e s).cix = s.cix ∧
      (envStep e s).booted = s.booted := by
  unfold envStep
  split
  · cases e with
    | timerHw => simp only [envEffect, timerHwStep_eq]; simp
    | frameHw => exact ⟨rfl, rfl, rfl, rfl⟩
    | timerIsr => simp only [envEffect, timerIsrStep_eq]; simp
    | sofIsr sel =>
      obtain ⟨_, h⟩ | ⟨_, _, _, h⟩ | ⟨_, _, _, h⟩ := sofIsrStep_cases sel s <;> simp [envEffect, h]
    | link event sel => cases event <;> exact ⟨rfl, rfl, rfl, rfl⟩
    | lineCoding line sel => exact ⟨rfl, rfl, rfl, rfl⟩
    | hostPoll p => cases p <;> exact ⟨rfl, rfl, rfl, rfl⟩
    | hostDeliver p => exact ⟨rfl, rfl, rfl, rfl⟩
  · exact ⟨rfl, rfl, rfl, rfl⟩

theorem trace_at_end (n : Nat) :
    (trace inTurn linked n).status = .running ∧ (trace inTurn linked n).prog = [] ∧
      (trace inTurn linked n).booted = true := by
  induction n with
  | zero => exact ⟨rfl, rfl, rfl⟩
  | succ n ih =>
    obtain ⟨h1, h2, h3⟩ := ih
    show (match stepBy (inTurn n) (trace inTurn linked n) with
      | .next t => t
      | .fault _ => trace inTurn linked n
      | .refused _ => trace inTurn linked n).status = _ ∧ (match stepBy (inTurn n) (trace inTurn linked n) with
      | .next t => t
      | .fault _ => trace inTurn linked n
      | .refused _ => trace inTurn linked n).prog = _ ∧ (match stepBy (inTurn n) (trace inTurn linked n) with
      | .next t => t
      | .fault _ => trace inTurn linked n
      | .refused _ => trace inTurn linked n).booted = _
    cases inTurn n with
    | main =>
      have : mainEnabled (trace inTurn linked n) = false := by simp [mainEnabled, h1, h2, h3]
      simp [stepBy, mainScheduled, this, h1, h2, h3]
    | env e =>
      obtain ⟨e1, e2, _, e4⟩ := envStep_main e (trace inTurn linked n)
      simp [stepBy, e1, e2, e4, h1, h2, h3]

theorem fair_inTurn (enabled : State → Bool) (taken : AgentStep → Bool) (k : Nat) (hk : k < 5)
    (h : ∀ n, n % 5 = k → taken (inTurn n) = true) : WeaklyFair enabled taken inTurn linked :=
  fun n _ => ⟨5 * n + k, by omega, h _ (by omega)⟩

theorem witness_FairTimerTicks : BlockInv linked ∧ FairRun inTurn linked ∧ linked.timerRunning = true ∧
    ∀ n, (trace inTurn linked n).status = .running := by
  refine ⟨inv_linked, ⟨fair_inTurn _ _ 0 (by omega) ?_, fair_inTurn _ _ 1 (by omega) ?_, fair_inTurn _ _ 3 (by omega) ?_,
    fair_inTurn _ _ 2 (by omega) ?_, fair_inTurn _ _ 4 (by omega) ?_⟩, rfl, fun n => (trace_at_end n).1⟩ <;>
  · intro n h
    simp [inTurn, h]

end Sys2Proof.Tests
end

section
/-! SUPPORT. The monotonic clock (40_clock.md): what one run of the tick handler does on each side of its carry, the
counters after `n` runs by induction on `n`, and the obligations of the clock family that follow from them. -/

namespace Sys2Proof.Machine.ClockLaws

/-! ## A command of one step, a step of another agent -/

/-- From idle, completing writes `RES` and `cix` alone: the phase is idle already. -/
theorem complete_of_idle {s : State} (h : s.phase = .idle) (v : Word) :
    complete v s = { s with res := v, cix := s.cix + 1 } := by
  simp [complete, h]

theorem envStep_of_enabled {e : EnvStep} {s : State} (h : envEnabled e s = true) : envStep e s = envEffect e s := by
  simp [envStep, h]

theorem envStep_of_disabled {e : EnvStep} {s : State} (h : envEnabled e s = false) : envStep e s = s := by
  simp [envStep, h]

theorem timerIsrEnabled_iff (s : State) :
    timerIsrEnabled s = true ↔ s.status = .running ∧ s.ie = true ∧ s.tov = true := by
  simp [timerIsrEnabled, isrAllowed_iff, and_assoc]

/-! ## One run of the tick handler (R101) -/

/-- No carry: the fraction stays below `FRACT_MAX`. -/
theorem onTimerTick_of_lt {s : State} (h : s.fractionCount + s.cfg.fractInc < s.cfg.fractMax) :
    onTimerTick s = { s with
      microsCount := s.microsCount + BitVec.ofNat 32 s.cfg.tickUs
      millisCount := s.millisCount + BitVec.ofNat 32 s.cfg.millisInc
      fractionCount := s.fractionCount + s.cfg.fractInc } := by
  simp [onTimerTick, Nat.not_le.2 h]

/-- Carry: the fraction reaches `FRACT_MAX`. -/
theorem onTimerTick_of_le {s : State} (h : s.cfg.fractMax ≤ s.fractionCount + s.cfg.fractInc) :
    onTimerTick s = { s with
      microsCount := s.microsCount + BitVec.ofNat 32 s.cfg.tickUs
      millisCount := s.millisCount + BitVec.ofNat 32 s.cfg.millisInc + 1
      fractionCount := s.fractionCount + s.cfg.fractInc - s.cfg.fractMax } := by
  simp [onTimerTick, h]

@[simp] theorem onTimerTick_cfg (s : State) : (onTimerTick s).cfg = s.cfg := rfl

@[simp] theorem onTimerTick_microsCount (s : State) :
    (onTimerTick s).microsCount = s.microsCount + BitVec.ofNat 32 s.cfg.tickUs := rfl

/-- Both sides of the carry at once: below `FRACT_MAX` a tick keeps the remainder of the fraction and gives its quotient,
0 or 1, to the milliseconds. -/
theorem onTimerTick_divMod {s : State} (hinc : s.cfg.fractInc < s.cfg.fractMax)
    (hfrac : s.fractionCount < s.cfg.fractMax) :
    (onTimerTick s).millisCount = s.millisCount +
      BitVec.ofNat 32 (s.cfg.millisInc + (s.fractionCount + s.cfg.fractInc) / s.cfg.fractMax) ∧
    (onTimerTick s).fractionCount = (s.fractionCount + s.cfg.fractInc) % s.cfg.fractMax := by
  obtain hlt | hle := Nat.lt_or_ge (s.fractionCount + s.cfg.fractInc) s.cfg.fractMax
  · rw [onTimerTick_of_lt hlt, Nat.div_eq_of_lt hlt, Nat.mod_eq_of_lt hlt]
    exact ⟨rfl, rfl⟩
  · have hquot : (s.fractionCount + s.cfg.fractInc) / s.cfg.fractMax = 1 :=
      Nat.div_eq_of_lt_le (by omega) (by omega)
    have hrem : (s.fractionCount + s.cfg.fractInc) % s.cfg.fractMax =
        s.fractionCount + s.cfg.fractInc - s.cfg.fractMax := by
      rw [Nat.mod_eq_sub_mod hle, Nat.mod_eq_of_lt (by omega)]
    rw [onTimerTick_of_le hle, hquot, hrem, BitVec.ofNat_add, ← BitVec.add_assoc]
    exact ⟨rfl, rfl⟩

/-! ## `n` runs of the tick handler (R107) -/

@[simp] theorem iterate_onTimerTick_cfg (n : Nat) (s : State) : (onTimerTick^[n] s).cfg = s.cfg := by
  induction n with
  | zero => rfl
  | succ n ih => rw [Function.iterate_succ_apply', onTimerTick_cfg, ih]

theorem iterate_onTimerTick_microsCount (n : Nat) (s : State) :
    (onTimerTick^[n] s).microsCount = s.microsCount + BitVec.ofNat 32 (n * s.cfg.tickUs) := by
  induction n with
  | zero => simp
  | succ n ih =>
    rw [Function.iterate_succ_apply', onTimerTick_microsCount, iterate_onTimerTick_cfg, ih, BitVec.add_assoc,
      ← BitVec.ofNat_add, Nat.succ_mul]

/-- Adding `b` to a remainder carries what it carries out of the whole. -/
theorem div_add_mod_add_div (a b m : Nat) (hm : 0 < m) : a / m + (a % m + b) / m = (a + b) / m := by
  have hsplit : a + b = a % m + b + m * (a / m) := by
    have := Nat.mod_add_div a m
    omega
  rw [hsplit, Nat.add_mul_div_left _ _ hm, Nat.add_comm]

/-- After `n` ticks the fraction is the remainder of all that was added to it, and the milliseconds have its quotient. -/
theorem iterate_onTimerTick_divMod {s : State} (hinc : s.cfg.fractInc < s.cfg.fractMax)
    (hfrac : s.fractionCount < s.cfg.fractMax) (n : Nat) :
    (onTimerTick^[n] s).millisCount = s.millisCount +
      BitVec.ofNat 32 (n * s.cfg.millisInc + (s.fractionCount + n * s.cfg.fractInc) / s.cfg.fractMax) ∧
    (onTimerTick^[n] s).fractionCount = (s.fractionCount + n * s.cfg.fractInc) % s.cfg.fractMax := by
  have hpos : 0 < s.cfg.fractMax := Nat.zero_lt_of_lt hinc
  induction n with
  | zero => simp [Nat.div_eq_of_lt hfrac, Nat.mod_eq_of_lt hfrac]
  | succ n ih =>
    obtain ⟨ihMillis, ihFrac⟩ := ih
    have hfracN : (onTimerTick^[n] s).fractionCount < (onTimerTick^[n] s).cfg.fractMax := by
      rw [ihFrac, iterate_onTimerTick_cfg]
      exact Nat.mod_lt _ hpos
    have hincN : (onTimerTick^[n] s).cfg.fractInc < (onTimerTick^[n] s).cfg.fractMax := by
      rwa [iterate_onTimerTick_cfg]
    obtain ⟨hmillis, hfraction⟩ := onTimerTick_divMod hincN hfracN
    rw [ihMillis, ihFrac, iterate_onTimerTick_cfg, BitVec.add_assoc, ← BitVec.ofNat_add] at hmillis
    rw [ihFrac, iterate_onTimerTick_cfg, Nat.mod_add_mod] at hfraction
    have hsum : s.fractionCount + (n + 1) * s.cfg.fractInc =
        s.fractionCount + n * s.cfg.fractInc + s.cfg.fractInc := by
      rw [Nat.succ_mul, Nat.add_assoc]
    have hcarry := div_add_mod_add_div (s.fractionCount + n * s.cfg.fractInc) s.cfg.fractInc _ hpos
    rw [Function.iterate_succ_apply', hmillis, hfraction, hsum, ← hcarry, Nat.succ_mul]
    refine ⟨?_, rfl⟩
    congr 2
    omega

/-! ## The exactness equation (R110) -/

/-- Under the exactness equation the quotient of the counter law is the whole number of true milliseconds. -/
theorem exact_millis {c : Config} (hpos : 0 < c.fractMax) (hexact : c.Exact) (n : Nat) :
    n * c.millisInc + n * c.fractInc / c.fractMax = n * c.tickUs / 1000 := by
  calc n * c.millisInc + n * c.fractInc / c.fractMax
      = n * (c.millisInc * c.fractMax + c.fractInc) / c.fractMax := by
        rw [Nat.mul_add, ← Nat.mul_assoc, Nat.mul_comm _ c.fractMax, Nat.mul_add_div hpos]
    _ = n * c.tickUs / 1000 := by
        rw [← Nat.mul_div_mul_right _ _ (by omega : 0 < 1000), Nat.mul_assoc, hexact, ← Nat.mul_assoc,
          Nat.mul_comm c.fractMax, Nat.mul_div_mul_right _ _ hpos]

/-! ## The obligations of the clock family -/

/-- Settles O14: a critical section opened and closed at once leaves the state, so both commands only complete. -/
theorem millisAndDelayUs : Obligations.MillisAndDelayUs := by
  intro s hidle
  refine ⟨fun a0 a1 => ?_, ?_, fun us => ?_⟩
  · simp [decode, unitOf, funcOf, decodeClock]
  · show execMillis s = _
    rw [execMillis, atIdle_idle hidle, conclude_ok, csExit_csEnter, complete_of_idle hidle]
  · show execDelayUs us s = _
    rw [execDelayUs, atIdle_idle hidle, conclude_ok, complete_of_idle hidle]

/-- Settles O19: `timerIsrStep_eq` around the tick handler without and with its carry (R226). -/
theorem timerIsrTick : Obligations.TimerIsrTick := by
  intro s
  have hstep (hrun : s.status = .running) (hie : s.ie = true) (htov : s.tov = true) :
      envStep .timerIsr s = timerIsrStep s :=
    envStep_of_enabled ((timerIsrEnabled_iff s).2 ⟨hrun, hie, htov⟩)
  refine ⟨fun hrun hie htov hlt => ?_, fun hrun hie htov hle => ?_, fun hoff => ?_⟩
  · rw [hstep hrun hie htov, timerIsrStep_eq, onTimerTick_of_lt hlt, hie]
  · rw [hstep hrun hie htov, timerIsrStep_eq, onTimerTick_of_le hle, hie]
  · refine envStep_of_disabled (Bool.eq_false_iff.2 fun hon => ?_)
    obtain ⟨hrun, hie, htov⟩ := (timerIsrEnabled_iff s).1 hon
    simp [hrun, hie, htov] at hoff

/-- Settles O20: the law by induction on the number of ticks, and its numbers at the suggested values from reset. -/
theorem counterLaw : Obligations.CounterLaw := by
  refine ⟨fun s n hwf hfrac => ?_, fun d => ?_⟩
  · obtain ⟨-, hinc, -⟩ := hwf
    exact ⟨iterate_onTimerTick_microsCount n s, iterate_onTimerTick_divMod hinc hfrac n⟩
  · have hmillis (n : Nat) := (iterate_onTimerTick_divMod (s := State.resetWith Config.suggested d)
      (by decide : 3 < 125) (by decide : 0 < 125) n).1
    rw [hmillis, hmillis, iterate_onTimerTick_microsCount]
    simp [State.resetWith, Config.suggested]

/-- Settles O21: the counter law read through the exactness equation; one tick on both sides of its carry. -/
theorem millisecondLaw : Obligations.MillisecondLaw := by
  refine ⟨fun s n hwf hexact hmillis hfrac hwrap => ?_, fun s => ?_, fun s hcfg hfrac => ?_⟩
  · obtain ⟨-, hinc, -⟩ := hwf
    have hpos : 0 < s.cfg.fractMax := Nat.zero_lt_of_lt hinc
    obtain ⟨hlaw, -⟩ := iterate_onTimerTick_divMod hinc (hfrac ▸ hpos) n
    rw [hlaw, hmillis, hfrac, Nat.zero_add, exact_millis hpos hexact, zero_add, BitVec.toNat_ofNat]
    exact Nat.mod_eq_of_lt (Nat.lt_of_le_of_lt (Nat.div_le_self _ _) hwrap)
  · obtain hlt | hle := Nat.lt_or_ge (s.fractionCount + s.cfg.fractInc) s.cfg.fractMax
    · exact .inl (by rw [onTimerTick_of_lt hlt])
    · exact .inr (by rw [onTimerTick_of_le hle])
  · have hnoCarry : s.fractionCount + s.cfg.fractInc < s.cfg.fractMax := by
      rw [hcfg] at hfrac ⊢
      exact hfrac
    rw [onTimerTick_of_lt hnoCarry, hcfg]
    rfl

end Sys2Proof.Machine.ClockLaws
end

section
/-! SUPPORT. The CDC channel (42_cdc_serial.md): what the receive commands do with the next byte of the received banks,
the accessors, SER_SEND_NOW, and SER_WRITE against a host that does not poll; and the obligations of the serial family
that follow from them. -/

namespace Sys2Proof.Machine.SerialLaws

open ClockLaws (complete_of_idle)

/-! ## Decoding and the link -/

/-- In unit 1 the function value alone chooses the command (R81). -/
theorem decode_of_unitSerial {cmd : Byte} (hunit : unitOf cmd = 1) (a0 a1 : Word) :
    decode ⟨cmd, a0, a1⟩ = decodeSerial (funcOf cmd) a0 a1 := by
  simp [decode, hunit]

theorem linkUsable_iff (s : State) : linkUsable s = true ↔ s.configured = true ∧ s.suspended = false := by
  simp [linkUsable]

/-! ## The received bytes (R131, R153) -/

/-- `RxTotal` counts the bytes of the stream the banks make. -/
theorem rxCount_eq_length_flatten (rx : List (List Byte)) : rxCount rx = rx.flatten.length :=
  List.length_flatten.symm

theorem rxNext_fst (rx : List (List Byte)) : (rxNext rx).1 = rx.flatten.head? := by
  induction rx using rxNext.induct with
  | case1 => rfl
  | case2 rest ih => simpa [rxNext] using ih
  | case3 b rest => rfl
  | case4 b c bank rest => rfl

theorem rxNext_snd_flatten (rx : List (List Byte)) : (rxNext rx).2.flatten = rx.flatten.tail := by
  induction rx using rxNext.induct with
  | case1 => rfl
  | case2 rest ih => simpa [rxNext] using ih
  | case3 b rest => rfl
  | case4 b c bank rest => rfl

theorem rxNext_snd_length_le (rx : List (List Byte)) : (rxNext rx).2.length ≤ rx.length := by
  induction rx using rxNext.induct with
  | case1 => exact Nat.le_refl _
  | case2 rest ih => exact Nat.le_succ_of_le ih
  | case3 b rest => exact Nat.le_succ _
  | case4 b c bank rest => exact Nat.le_refl _

/-- With no byte received, every bank is empty and is given back. -/
theorem rxNext_of_flatten_nil {rx : List (List Byte)} (h : rx.flatten = []) : rxNext rx = (none, []) := by
  induction rx with
  | nil => rfl
  | cons bank rest ih =>
    obtain ⟨rfl, hrest⟩ : bank = [] ∧ rest.flatten = [] := by simpa using h
    exact ih hrest

/-- With a byte received, the next one is the head of the stream. -/
theorem exists_rxNext {rx : List (List Byte)} (h : rx.flatten ≠ []) :
    ∃ b rest, rxNext rx = (some b, rest) ∧ rx.flatten = b :: rest.flatten := by
  obtain ⟨b, tail, hflat⟩ := List.exists_cons_of_ne_nil h
  refine ⟨b, (rxNext rx).2, Prod.ext ?_ rfl, ?_⟩
  · rw [rxNext_fst, hflat, List.head?_cons]
  · rw [rxNext_snd_flatten, hflat, List.tail_cons]

/-! ## The receive commands (R150 to R154) -/

/-- SER_AVAILABLE counts under a usable link, adds the held byte and saturates (R150). -/
theorem exec_serAvailable {s : State} (hidle : s.phase = .idle) :
    exec .serAvailable s = .next { s with
      sel := .cdcRx
      res := natResult (min ((if linkUsable s then rxCount s.rx else 0) + (if s.peekByte = none then 0 else 1)) 255)
      cix := s.cix + 1 } := by
  show execSerAvailable s = _
  rw [execSerAvailable, atIdle_idle hidle]
  simp only [linkUsable_enterSelect, rxTotal_eq (enterSelect_sel .cdcRx s), csExit_enterSelect]
  cases linkUsable s <;> simp [complete, select, enterSelect, hidle]

theorem exec_serPeek_of_held {s : State} {b : Byte} (hidle : s.phase = .idle) (hheld : s.peekByte = some b) :
    exec .serPeek s = .next { s with res := b.setWidth 32, cix := s.cix + 1 } := by
  show execSerPeek s = _
  rw [execSerPeek, atIdle_idle hidle]
  simp only [hheld, conclude_ok, complete_of_idle hidle, byteResult]

/-- With no byte held SER_PEEK keeps in the slot the byte `RxGet` gives. -/
theorem exec_serPeek_of_rxGet_some {s t : State} {b : Byte} (hidle : s.phase = .idle) (hnone : s.peekByte = none)
    (hget : rxGet s = .ok (some b, t)) (ht : t.phase = .idle) :
    exec .serPeek s = .next { t with peekByte := some b, res := b.setWidth 32, cix := t.cix + 1 } := by
  show execSerPeek s = _
  rw [execSerPeek, atIdle_idle hidle]
  simp only [hnone, hget, ok_bind, pure_eq_ok, conclude_ok, complete_of_idle (s := { t with peekByte := some b }) ht]
  rfl

/-- With no byte held and none to get SER_PEEK returns -1. -/
theorem exec_serPeek_of_rxGet_none {s t : State} (hidle : s.phase = .idle) (hnone : s.peekByte = none)
    (hget : rxGet s = .ok (none, t)) (ht : t.phase = .idle) :
    exec .serPeek s = .next { t with res := 0xFFFFFFFF, cix := t.cix + 1 } := by
  show execSerPeek s = _
  rw [execSerPeek, atIdle_idle hidle]
  simp only [hnone, hget, ok_bind, pure_eq_ok, conclude_ok, complete_of_idle ht]
  rfl

theorem exec_serRead_of_held {s : State} {b : Byte} (hidle : s.phase = .idle) (hheld : s.peekByte = some b) :
    exec .serRead s = .next { s with peekByte := none, res := b.setWidth 32, cix := s.cix + 1 } := by
  show execSerRead s = _
  rw [execSerRead, atIdle_idle hidle]
  simp only [hheld, conclude_ok, complete_of_idle (s := { s with peekByte := none }) hidle, byteResult]

/-- With no byte held SER_READ returns what `RxGet` gives. -/
theorem exec_serRead_of_rxGet {s t : State} {v : Option Byte} (hidle : s.phase = .idle) (hnone : s.peekByte = none)
    (hget : rxGet s = .ok (v, t)) (ht : t.phase = .idle) :
    exec .serRead s = .next { t with res := byteOrMinusOne v, cix := t.cix + 1 } := by
  show execSerRead s = _
  rw [execSerRead, atIdle_idle hidle]
  simp only [hnone, hget, ok_bind, pure_eq_ok, conclude_ok, complete_of_idle ht]

/-- `RxGet` on a usable link, by the next byte of the banks. -/
theorem rxGet_of_rxNext {s : State} {v : Option Byte} {rest : List (List Byte)} (hlink : linkUsable s = true)
    (hnext : rxNext s.rx = (v, rest)) : rxGet s = .ok (v, { s with sel := .cdcRx, rx := rest }) := by
  rw [rxGet_usable hlink, hnext]

/-- `RxGet` on a usable link with no byte received. -/
theorem rxGet_of_flatten_nil {s : State} (hlink : linkUsable s = true) (hempty : s.rx.flatten = []) :
    rxGet s = .ok (none, { s with sel := .cdcRx, rx := [] }) :=
  rxGet_of_rxNext hlink (rxNext_of_flatten_nil hempty)

theorem exec_serFlush_usable {s : State} (hidle : s.phase = .idle) (hlink : linkUsable s = true) :
    exec .serFlush s = .next { s with sel := .cdcRx, rx := [], peekByte := none, res := 0, cix := s.cix + 1 } := by
  show execSerFlush s = _
  rw [execSerFlush, atIdle_idle hidle]
  simp only [linkUsable_csEnter, hlink, if_true, rxReleaseAll_eq (s := select .cdcRx (csEnter s)) rfl, ok_bind,
    pure_eq_ok, conclude_ok]
  rw [complete_of_idle (by exact hidle)]
  rfl

theorem exec_serFlush_unusable {s : State} (hidle : s.phase = .idle) (hlink : linkUsable s = false) :
    exec .serFlush s = .next { s with peekByte := none, res := 0, cix := s.cix + 1 } := by
  show execSerFlush s = _
  rw [execSerFlush, atIdle_idle hidle]
  simp only [linkUsable_csEnter, hlink, Bool.false_eq_true, if_false, ok_bind, pure_eq_ok, conclude_ok,
    csExit_csEnter]
  rw [complete_of_idle (by exact hidle)]

/-! ## The accessors (R160 to R167) -/

/-- An accessor whose field does not read `IE` returns it and changes nothing else. -/
theorem accessor_of_idle (field : State → Word) {s : State} (hidle : s.phase = .idle)
    (hfield : field (csEnter s) = field s) : accessor field s = .next { s with res := field s, cix := s.cix + 1 } := by
  rw [accessor, atIdle_idle hidle, conclude_ok, csExit_csEnter, hfield, complete_of_idle hidle]

theorem linkReady_iff (s : State) : linkReady s = true ↔
    (s.configured = true ∧ s.suspended = false) ∧ (s.cfg.readyRequiresDtr = false ∨ s.line.dtr = true) := by
  simp [linkReady, linkUsable_iff]

/-! ## SER_SEND_NOW (R156) -/

theorem exec_serSendNow_releases {s : State} (hidle : s.phase = .idle) (hlink : linkUsable s = true)
    (harmed : s.flushRemaining ≠ none) :
    exec .serSendNow s = .next { s with
      sel := .cdcTx, cdcTx := s.cdcTx.release, flushRemaining := none, res := 0, cix := s.cix + 1 } := by
  show execSerSendNow s = _
  rw [execSerSendNow, atIdle_idle hidle]
  simp only [linkUsable_csEnter, csEnter_flushRemaining, hlink, harmed, ne_eq, not_false_eq_true, and_self, if_true,
    epRelease_eq (e := .cdcTx) (s := select .cdcTx (csEnter s)) rfl, ok_bind, pure_eq_ok, conclude_ok]
  rw [complete_of_idle (by exact hidle)]
  rfl

theorem exec_serSendNow_idles {s : State} (hidle : s.phase = .idle)
    (hno : linkUsable s = false ∨ s.flushRemaining = none) :
    exec .serSendNow s = .next { s with res := 0, cix := s.cix + 1 } := by
  have hcond : ¬ (linkUsable s = true ∧ s.flushRemaining ≠ none) := by
    obtain hlink | hdisarmed := hno
    · simp [hlink]
    · simp [hdisarmed]
  show execSerSendNow s = _
  rw [execSerSendNow, atIdle_idle hidle]
  simp only [linkUsable_csEnter, csEnter_flushRemaining, if_neg hcond, pure_eq_ok, conclude_ok, csExit_csEnter,
    complete_of_idle hidle]

/-! ## SER_WRITE against a stalled host (R155, R159) -/

/-- A buffer within the address space is no bad one. -/
theorem bufferBad_of_le {c : Config} {buf size : Nat} (h : buf + size ≤ 2 ^ c.addrBits) :
    bufferBad c buf size = false := by
  simp [bufferBad, h]

theorem exec_serWrite_of_idle {s : State} (hidle : s.phase = .idle) (buf size : Word) :
    exec (.serWrite buf size) s = conclude s (writeStart (bufAddress s.cfg buf) size.toNat s) := by
  show execSerWrite buf size s = _
  simp only [execSerWrite, hidle]

/-- With no sticky timeout SER_WRITE enters its loop. -/
theorem exec_serWrite_enters {s : State} {buf size : Word} (hidle : s.phase = .idle) (hlink : linkUsable s = true)
    (hsticky : s.txTimedOutPrev = false) (hfits : bufAddress s.cfg buf + size.toNat ≤ 2 ^ s.cfg.addrBits) :
    exec (.serWrite buf size) s =
      conclude s (writeLoop size.toNat s.ie (bufAddress s.cfg buf) size.toNat 0 (enterSelect .cdcTx s)) := by
  rw [exec_serWrite_of_idle hidle, writeStart_eq, bufferBad_of_le hfits, hlink, hsticky]
  rfl

/-- After a sticky timeout SER_WRITE returns 0 at once while the endpoint is unwritable. -/
theorem exec_serWrite_refuses {s : State} {buf size : Word} (hidle : s.phase = .idle) (hlink : linkUsable s = true)
    (hsticky : s.txTimedOutPrev = true) (hfull : writable .cdcTx s = false)
    (hfits : bufAddress s.cfg buf + size.toNat ≤ 2 ^ s.cfg.addrBits) :
    exec (.serWrite buf size) s = .next (complete 0 (markWriteError (select .cdcTx s))) := by
  rw [exec_serWrite_of_idle hidle, writeStart_eq, bufferBad_of_le hfits, hlink, hsticky, hfull]
  rfl

/-- A wait at its deadline ends the command with the count so far and both flags set. -/
theorem exec_serWrite_timesOut {s : State} {b z : Word} {buf size count start : Nat}
    (hwait : s.phase = .serWait buf size count start) (hlink : linkUsable s = true)
    (hdeadline : s.cfg.txTimeout ≤ subMod s.cfg.frameBits s.frame start) :
    exec (.serWrite b z) s = .next (complete (natResult count) (markTimedOut s)) := by
  show execSerWrite b z s = _
  simp only [execSerWrite, hwait, writeResume]
  rw [waitResume_eq, hlink, if_neg (by decide), if_pos hdeadline]
  rfl

/-- The partial packet is within the free banks: a bank that is being filled is one of them (R48). -/
theorem cur_length_le_freeRoom {s : State} (hinv : BlockInv s) :
    s.cdcTx.cur.length ≤ (s.cfg.banks.cdcTx - s.cdcTx.released.length) * s.cfg.size.cdcTx := by
  have hpartial := hinv.cdcPartial
  by_cases hcur : s.cdcTx.cur = []
  · simp [hcur]
  · have hfree : s.cdcTx.released.length < s.cfg.banks.cdcTx := (hinv.endpoints .cdcTx).roomWhileFilling hcur
    calc s.cdcTx.cur.length ≤ 1 * s.cfg.size.cdcTx := by omega
      _ ≤ _ := Nat.mul_le_mul_right _ (by omega)

/-- With every bank released none is being filled (R48). -/
theorem cur_eq_nil_of_banks_full {s : State} (hinv : BlockInv s)
    (hfull : s.cdcTx.released.length = s.cfg.banks.cdcTx) : s.cdcTx.cur = [] := by
  by_contra hcur
  have hfree : s.cdcTx.released.length < s.cfg.banks.cdcTx := (hinv.endpoints .cdcTx).roomWhileFilling hcur
  exact absurd hfull (Nat.ne_of_lt hfree)

/-- Filling exactly the free banks makes as many packets as there were free banks. -/
theorem filled_released_length {s : State} {buf cap free : Nat} (hpos : 0 < s.cfg.size.cdcTx)
    (hcap : cap + s.cdcTx.cur.length = free * s.cfg.size.cdcTx) :
    (filled buf cap s).cdcTx.released.length = s.cdcTx.released.length + free := by
  have hlen : (s.cdcTx.cur ++ s.mem.bytes buf cap).length = free * s.cfg.size.cdcTx := by
    rw [List.length_append, Memory.bytes_length, Nat.add_comm, hcap]
  rw [filled, List.length_append, fullPackets_length, hlen, Nat.mul_div_cancel _ hpos]

/-- Filling whole banks keeps the stream: the packets are those before, the partial packet and the bytes written. -/
theorem filled_packets_flatten {s : State} {buf cap free : Nat} (hpos : 0 < s.cfg.size.cdcTx)
    (hcap : cap + s.cdcTx.cur.length = free * s.cfg.size.cdcTx) :
    (filled buf cap s).cdcTx.packets.flatten = s.cdcTx.packets.flatten ++ s.cdcTx.cur ++ s.mem.bytes buf cap := by
  have hrest : packetRest s.cfg.size.cdcTx (s.cdcTx.cur ++ s.mem.bytes buf cap) = [] := by
    apply List.eq_nil_of_length_eq_zero
    rw [packetRest_length, List.length_append, Memory.bytes_length, Nat.add_comm, hcap, Nat.mul_mod_left]
  have hstream := fullPackets_flatten hpos (s.cdcTx.cur ++ s.mem.bytes buf cap)
  rw [hrest, List.append_nil] at hstream
  simp [filled, InEndpoint.packets, hstream]

/-! ## The obligations of the serial family -/

/-- Settles O23: `exec_serAvailable` with the count and the link condition written out. -/
theorem serAvailableCount : Obligations.SerAvailableCount := by
  refine ⟨decode_of_unitSerial (by decide), fun s hidle => ?_⟩
  rw [exec_serAvailable hidle]
  simp only [linkUsable_iff, rxCount, natResult]

/-- Settles O24: the held byte, or what `RxGet` gives, kept in the slot. -/
theorem serPeekResult : Obligations.SerPeekResult :=
  ⟨decode_of_unitSerial (by decide), fun _ hidle =>
    ⟨fun _ hheld => exec_serPeek_of_held hidle hheld,
    fun hnone hlink => exec_serPeek_of_rxGet_none hidle hnone (rxGet_unusable hlink) hidle,
    fun hnone hlink hempty => exec_serPeek_of_rxGet_none hidle hnone (rxGet_of_flatten_nil hlink hempty) hidle,
    fun _ _ hnone hlink hnext => exec_serPeek_of_rxGet_some hidle hnone (rxGet_of_rxNext hlink hnext) hidle⟩⟩

/-- Settles O25: the held byte, or what `RxGet` gives; and `rxNext` takes the head of the received stream. -/
theorem serReadResult : Obligations.SerReadResult := by
  refine ⟨decode_of_unitSerial (by decide), fun s hidle =>
    ⟨fun b hheld => exec_serRead_of_held hidle hheld,
    fun hnone hlink => exec_serRead_of_rxGet hidle hnone (rxGet_unusable hlink) hidle,
    fun hnone hlink hempty => exec_serRead_of_rxGet hidle hnone (rxGet_of_flatten_nil hlink hempty) hidle,
    fun b rest hnone hlink hnext => exec_serRead_of_rxGet hidle hnone (rxGet_of_rxNext hlink hnext) hidle⟩,
    fun rx => ⟨rxNext_fst rx, rxNext_snd_flatten rx, rxNext_snd_length_le rx, fun b bank rest hrx hbank => ?_,
    fun b rest hrx => ?_⟩⟩
  · obtain ⟨c, tail, rfl⟩ := List.exists_cons_of_ne_nil hbank
    rw [hrx, rxNext]
  · rw [hrx, rxNext]

/-- Settles O26: SER_AVAILABLE after the flush counts no bank and no held byte. -/
theorem serFlushDiscards : Obligations.SerFlushDiscards := by
  refine ⟨decode_of_unitSerial (by decide), fun s hidle =>
    ⟨fun hlink => ⟨exec_serFlush_usable hidle hlink, ?_⟩, exec_serFlush_unusable hidle⟩⟩
  refine ⟨_, _, exec_serFlush_usable hidle hlink, exec_serAvailable hidle, ?_⟩
  simp [rxCount, natResult]

/-- Settles O27: the peek moves the head of the stream into the slot, the read takes it from there, and the stream left
is its tail. -/
theorem peekReadLaw : Obligations.PeekReadLaw := by
  intro s hidle hlink hnone hbytes
  obtain ⟨b, rest, hnext, hflat⟩ := exists_rxNext hbytes
  have hlen : s.rx.flatten.length = rest.flatten.length + 1 := by rw [hflat, List.length_cons]
  refine ⟨_, _, _, _, exec_serPeek_of_rxGet_some hidle hnone (rxGet_of_rxNext hlink hnext) hidle,
    exec_serRead_of_held hidle rfl, rfl, ⟨b, by rw [hflat, List.head?_cons], rfl⟩, exec_serAvailable hidle,
    exec_serAvailable hidle, ?_⟩
  obtain ⟨hconf, hsusp⟩ := (linkUsable_iff s).1 hlink
  simp only [linkUsable_iff, hconf, hsusp, hnone, rxCount_eq_length_flatten, hlen, and_self, if_true, natResult,
    BitVec.toNat_ofNat]
  omega

/-- Settles O28: each command is the accessor of its field; SER_GET_WRITE_ERROR opens no section. -/
theorem linkStatusAccessors : Obligations.LinkStatusAccessors := by
  refine ⟨fun a0 a1 => ?_, fun s hidle =>
    ⟨accessor_of_idle (fun s => s.line.baud) hidle rfl,
    accessor_of_idle (fun s => byteResult s.line.stopbits) hidle rfl,
    accessor_of_idle (fun s => byteResult s.line.paritytype) hidle rfl,
    accessor_of_idle (fun s => byteResult s.line.numbits) hidle rfl,
    accessor_of_idle (fun s => boolResult s.line.dtr) hidle rfl,
    accessor_of_idle (fun s => boolResult s.line.rts) hidle rfl, ?_, ?_⟩⟩
  · refine ⟨?_, ?_, ?_, ?_, ?_, ?_, ?_, ?_⟩ <;> exact decode_of_unitSerial (by decide) a0 a1
  · show execSerReady s = _
    rw [execSerReady, accessor_of_idle _ hidle rfl]
    simp only [boolResult, linkReady_iff]
  · show execSerGetWriteError s = _
    rw [execSerGetWriteError, atIdle_idle hidle, conclude_ok, complete_of_idle hidle, boolResult]

/-- Settles O34: `InEndpoint.release` with and without a partial packet, and the two ways the command does nothing. -/
theorem serSendNow : Obligations.SerSendNow := by
  refine ⟨decode_of_unitSerial (by decide), fun s hidle => ⟨fun hlink harmed hcur => ?_,
    fun hlink harmed hcur => ?_, exec_serSendNow_idles hidle⟩⟩
  · rw [exec_serSendNow_releases hidle hlink harmed, InEndpoint.release, if_neg hcur]
  · rw [exec_serSendNow_releases hidle hlink harmed, InEndpoint.release, if_pos hcur]

/-- Settles O32: the loop's two ends, `writeLoop_fits` and `writeLoop_fills`, then the timeout and the sticky
refusal. -/
theorem serWriteBackpressure : Obligations.SerWriteBackpressure := by
  intro s buf size cap start hinv hidle hlink hsticky hsize hfits
  have hroom := hinv.cdcPartial
  have hpos : 0 < s.cfg.size.cdcTx := Nat.zero_lt_of_lt hroom
  have hbanks : s.cdcTx.released.length ≤ s.cfg.banks.cdcTx := (hinv.endpoints .cdcTx).releasedFits
  have hcap : cap + s.cdcTx.cur.length =
      (s.cfg.banks.cdcTx - s.cdcTx.released.length) * s.cfg.size.cdcTx :=
    Nat.sub_add_cancel (cur_length_le_freeRoom hinv)
  rw [exec_serWrite_enters hidle hlink hsticky hfits]
  refine ⟨fun hle => ?_, fun hlt => ?_⟩
  · have hroomFor : s.cdcTx.cur.length + size.toNat ≤
        (s.cfg.banks.cdcTx - s.cdcTx.released.length) * s.cfg.size.cdcTx := by omega
    rw [writeLoop_fits _ _ _ _ _ (enterSelect .cdcTx s) rfl (Nat.le_refl _) hsize hroom hroomFor, conclude_ok]
    refine ⟨_, rfl, rfl, ?_⟩
    simp [writeDone, natResult]
  · rw [writeLoop_fills _ _ _ _ _ cap (enterSelect .cdcTx s) rfl (Nat.le_refl _) hroom hbanks
      (cur_eq_nil_of_banks_full (s := s) hinv) hcap hlt, conclude_ok, Nat.zero_add]
    refine ⟨_, rfl, rfl, rfl, ?_, rfl, filled_packets_flatten (s := enterSelect .cdcTx s) hpos hcap,
      fun u hwait hlinkU hdeadline => ?_⟩
    · have hnew := filled_released_length (s := enterSelect .cdcTx s) (buf := start) hpos hcap
      exact hnew.trans (Nat.add_sub_cancel' hbanks)
    · refine ⟨_, exec_serWrite_timesOut hwait hlinkU hdeadline, rfl, rfl, rfl, rfl, rfl,
        fun buf' size' hfits' hunwritable => ?_⟩
      exact ⟨_, exec_serWrite_refuses rfl hlinkU rfl hunwritable hfits', rfl, rfl, rfl⟩

end Sys2Proof.Machine.SerialLaws
end

section
/-! SUPPORT. The HID commands that only write their report (43_hid.md): the keyboard setters and JS_SET_BYTE, and the
obligations that follow from them. -/

namespace Sys2Proof.Machine.HidLaws

open ClockLaws (complete_of_idle)

/-! ## Decoding -/

/-- In unit 2 the function value alone chooses the command (R81). -/
theorem decode_of_unitKeyboard {cmd : Byte} (hunit : unitOf cmd = 2) (a0 a1 : Word) :
    decode ⟨cmd, a0, a1⟩ = decodeKeyboard (funcOf cmd) a0 a1 := by
  simp [decode, hunit]

/-- In unit 4 the function value alone chooses the command (R81). -/
theorem decode_of_unitJoystick {cmd : Byte} (hunit : unitOf cmd = 4) (a0 a1 : Word) :
    decode ⟨cmd, a0, a1⟩ = decodeJoystick (funcOf cmd) a0 a1 := by
  simp [decode, hunit]

/-! ## Writing one byte of a report (R180 to R186, R198) -/

/-- A setter completes at once and writes its slot of the keyboard report. -/
theorem kbSetter_of_idle {s : State} (hidle : s.phase = .idle) (i : Fin 8) (v : Byte) :
    kbSetter i v s = .next { s with kb := s.kb.set i.val v, res := 0, cix := s.cix + 1 } := by
  rw [kbSetter, atIdle_idle hidle, conclude_ok, complete_of_idle (s := setKb i v s) hidle, setKb]

/-- JS_SET_BYTE inside the report writes its byte and completes. -/
theorem exec_jsSetByte_of_lt {s : State} (hidle : s.phase = .idle) {idx : Word} (hidx : idx.toNat < 12) (v : Byte) :
    exec (.jsSetByte idx v) s = .next { s with js := s.js.set idx.toNat v hidx, res := 0, cix := s.cix + 1 } := by
  show execJsSetByte idx v s = _
  rw [execJsSetByte, atIdle_idle hidle, dif_pos hidx, conclude_ok,
    complete_of_idle (s := { s with js := s.js.set idx.toNat v hidx }) hidle]

/-- JS_SET_BYTE outside the report faults, and a raised fault writes the status alone (R221). -/
theorem exec_jsSetByte_of_le {s : State} (hidle : s.phase = .idle) {idx : Word} (hidx : 12 ≤ idx.toNat) (v : Byte) :
    exec (.jsSetByte idx v) s = .next { s with status := .faulted .badOperand } := by
  show execJsSetByte idx v s = _
  rw [execJsSetByte, atIdle_idle hidle, dif_neg (Nat.not_lt.2 hidx), conclude_raise, raiseFault]

/-! ## The obligations on commands that only write their report -/

/-- Settles O37: each command is the setter of its slot: the modifier at 0, key `n` at `n + 1`. -/
theorem keyboardSetters : Obligations.KeyboardSetters := by
  intro s a0 a1 hidle v
  exact ⟨⟨decode_of_unitKeyboard (by decide) a0 a1, kbSetter_of_idle hidle 0 v⟩,
    ⟨decode_of_unitKeyboard (by decide) a0 a1, kbSetter_of_idle hidle 2 v⟩,
    ⟨decode_of_unitKeyboard (by decide) a0 a1, kbSetter_of_idle hidle 3 v⟩,
    ⟨decode_of_unitKeyboard (by decide) a0 a1, kbSetter_of_idle hidle 4 v⟩,
    ⟨decode_of_unitKeyboard (by decide) a0 a1, kbSetter_of_idle hidle 5 v⟩,
    ⟨decode_of_unitKeyboard (by decide) a0 a1, kbSetter_of_idle hidle 6 v⟩,
    ⟨decode_of_unitKeyboard (by decide) a0 a1, kbSetter_of_idle hidle 7 v⟩⟩

/-- Settles O46: the index against the report's length of 12. -/
theorem joystickByte : Obligations.JoystickByte := by
  intro s a0 a1 hidle
  exact ⟨decode_of_unitJoystick (by decide) a0 a1, fun hidx => exec_jsSetByte_of_lt hidle hidx _,
    fun hidx => exec_jsSetByte_of_le hidle hidx _⟩

end Sys2Proof.Machine.HidLaws
end

section
/-! SUPPORT. The system and interrupt-control commands (44_system.md): what a block that has stopped still admits, the
four commands from idle, and the obligations that follow from them. -/

namespace Sys2Proof.Machine.SystemLaws

open ClockLaws (complete_of_idle envStep_of_disabled)

/-- In unit 5 the function value alone chooses the command (R81). -/
theorem decode_of_unitSystem {cmd : Byte} (hunit : unitOf cmd = 5) (a0 a1 : Word) :
    decode ⟨cmd, a0, a1⟩ = decodeSystem (funcOf cmd) a0 := by
  simp [decode, hunit]

/-! ## What a stopped block still admits (R45) -/

theorem mainEnabled_of_stopped {s : State} (hstop : s.status ≠ .running) : mainEnabled s = false := by
  simp [mainEnabled, hstop]

theorem isrAllowed_of_stopped {s : State} (hstop : s.status ≠ .running) : isrAllowed s = false := by
  simp [isrAllowed, hstop]

/-- Every agent's step asks for a running block, a HOST poll excepted. -/
theorem envEnabled_of_stopped {s : State} (hstop : s.status ≠ .running) {e : EnvStep}
    (hpoll : ∀ p, e ≠ .hostPoll p) : envEnabled e s = false := by
  cases e with
  | timerHw => simp [envEnabled, timerHwEnabled, hstop]
  | frameHw => simp [envEnabled, frameHwEnabled, hstop]
  | timerIsr => simp [envEnabled, timerIsrEnabled, isrAllowed_of_stopped hstop]
  | sofIsr => simp [envEnabled, sofIsrEnabled, isrAllowed_of_stopped hstop]
  | link => simp [envEnabled, linkIsrEnabled, isrAllowed_of_stopped hstop]
  | lineCoding => simp [envEnabled, lineIsrEnabled, isrAllowed_of_stopped hstop]
  | hostPoll p => exact absurd rfl (hpoll p)
  | hostDeliver => simp [envEnabled, hostDeliverEnabled, hstop]

theorem envStep_of_stopped {s : State} (hstop : s.status ≠ .running) {e : EnvStep} (hpoll : ∀ p, e ≠ .hostPoll p) :
    envStep e s = s :=
  envStep_of_disabled (envEnabled_of_stopped hstop hpoll)

theorem hostPollEnabled_iff (p : InEp) (s : State) :
    hostPollEnabled p s = true ↔ busUp s = true ∧ (s.inEp p).released ≠ [] := by
  simp [hostPollEnabled]

/-- A poll needs the device on the bus. -/
theorem hostPollEnabled_of_detached {s : State} (hdetached : s.usbAttached = false) (p : InEp) :
    hostPollEnabled p s = false := by
  simp [hostPollEnabled, busUp, hdetached]

/-- Stopped and off the bus, the block admits no step at all. -/
theorem envStep_of_stopped_of_detached {s : State} (hstop : s.status ≠ .running) (hdetached : s.usbAttached = false)
    (e : EnvStep) : envStep e s = s := by
  by_cases hpoll : ∃ p, e = .hostPoll p
  · obtain ⟨p, rfl⟩ := hpoll
    exact envStep_of_disabled (hostPollEnabled_of_detached hdetached p)
  · exact envStep_of_stopped hstop (not_exists.1 hpoll)

/-! ## The four commands from idle (R210 to R213) -/

theorem exec_sysReboot {s : State} (hidle : s.phase = .idle) :
    exec .sysReboot s = .next { s with
      ie := false, timerRunning := false, usbAttached := false, status := .rebooted s.cfg.bootloaderEntry } := by
  show execSysReboot s = _
  rw [execSysReboot, atIdle_idle hidle, conclude_ok]

theorem exec_sysRestart {s : State} (hidle : s.phase = .idle) :
    exec .sysRestart s = .next { s with ie := false, timerRunning := false, status := .restarted 0 } := by
  show execSysRestart s = _
  rw [execSysRestart, atIdle_idle hidle, conclude_ok]

theorem exec_csEnter {s : State} (hidle : s.phase = .idle) :
    exec .csEnter s = .next { s with ie := false, res := boolResult s.ie, cix := s.cix + 1 } := by
  show execCsEnter s = _
  rw [execCsEnter, atIdle_idle hidle, conclude_ok, complete_of_idle (s := csEnter s) hidle, csEnter]

theorem exec_csExit {s : State} (hidle : s.phase = .idle) (saved : Bool) :
    exec (.csExit saved) s = .next { s with ie := saved, res := 0, cix := s.cix + 1 } := by
  show execCsExit saved s = _
  rw [execCsExit, atIdle_idle hidle, conclude_ok, complete_of_idle (s := csExit saved s) hidle, csExit]

/-- Bit 0 of the result of CS_ENTER is the value CS_EXIT has to restore. -/
theorem getLsbD_zero_boolResult (b : Bool) : (boolResult b).getLsbD 0 = b := by
  cases b <;> rfl

/-! ## The obligations of the system family -/

/-- Settles O47: both commands stop the block; the reboot takes it off the bus too, and with that HOST's polls end. -/
theorem terminalCommands : Obligations.TerminalCommands := by
  refine ⟨fun a0 a1 => ⟨decode_of_unitSystem (by decide) a0 a1, decode_of_unitSystem (by decide) a0 a1⟩,
    fun s hidle => ?_⟩
  intro rebooted restarted
  have hrebooted : rebooted.status ≠ .running := nofun
  have hrestarted : restarted.status ≠ .running := nofun
  refine ⟨exec_sysReboot hidle, exec_sysRestart hidle, mainEnabled_of_stopped hrebooted,
    mainEnabled_of_stopped hrestarted, envStep_of_stopped_of_detached hrebooted rfl,
    fun _ hpoll => envStep_of_stopped hrestarted hpoll, fun p hbus hreleased => ?_⟩
  have hkept : restarted.inEp p = s.inEp p := by cases p <;> rfl
  exact (hostPollEnabled_iff p restarted).2 ⟨hbus, hkept ▸ hreleased⟩

/-- Settles O48: nested, the inner section captures the `IE` that the outer one cleared, and each exit restores what
its own entry captured. -/
theorem criticalSectionCommands : Obligations.CriticalSectionCommands := by
  refine ⟨fun a0 a1 => ⟨decode_of_unitSystem (by decide) a0 a1, decode_of_unitSystem (by decide) a0 a1⟩,
    fun s hidle => ⟨exec_csEnter hidle, exec_csExit hidle, ?_⟩⟩
  let s1 : State := { s with ie := false, res := boolResult s.ie, cix := s.cix + 1 }
  let s2 : State := { s1 with ie := false, res := boolResult s1.ie, cix := s1.cix + 1 }
  let s3 : State := { s2 with ie := s2.res.getLsbD 0, res := 0, cix := s2.cix + 1 }
  exact ⟨s1, s2, s3, _, exec_csEnter hidle, exec_csEnter (s := s1) hidle, rfl, exec_csExit (s := s2) hidle _,
    getLsbD_zero_boolResult s1.ie, exec_csExit (s := s3) hidle _, getLsbD_zero_boolResult s.ie⟩

end Sys2Proof.Machine.SystemLaws
end

section
/-! SUPPORT. The interrupt sources of the USB core (60_exceptions.md): the SOF ISR, the link events and the line-coding
event when they are enabled and when they are not; that no other agent and no command writes the link state; and the
obligations that follow from them. -/

namespace Sys2Proof.Machine.UsbIsrLaws

open ClockLaws (envStep_of_enabled envStep_of_disabled)
open SerialLaws (linkUsable_iff)

/-! ## When a USB ISR step is enabled (R224, R225, R230, R231) -/

theorem sofIsrEnabled_iff (s : State) :
    sofIsrEnabled s = true ↔ s.status = .running ∧ s.ie = true ∧ s.sofPending = true := by
  simp [sofIsrEnabled, isrAllowed_iff, and_assoc]

theorem linkIsrEnabled_iff (event : LinkEvent) (s : State) :
    linkIsrEnabled event s = true ↔
      s.status = .running ∧ s.ie = true ∧ s.usbAttached = true ∧ linkCondition s event = true := by
  simp [linkIsrEnabled, isrAllowed_iff, and_assoc]

theorem lineIsrEnabled_iff (s : State) :
    lineIsrEnabled s = true ↔ s.status = .running ∧ s.ie = true ∧ s.usbAttached = true ∧
      s.configured = true ∧ s.suspended = false := by
  simp [lineIsrEnabled, isrAllowed_iff, linkUsable_iff, and_assoc]

/-! ## The link and line-coding events (R230, R231) -/

/-- An enabled link event has its effect and leaves `SEL` at the drawn value. -/
theorem envStep_link {s : State} (event : LinkEvent) (hrun : s.status = .running) (hie : s.ie = true)
    (hattached : s.usbAttached = true) (hcond : linkCondition s event = true) (sel : Endpoint) :
    envStep (.link event sel) s = { linkEffect event s with sel := sel } := by
  have hkept : (linkEffect event s).ie = true := by cases event <;> exact hie
  calc envStep (.link event sel) s
      = linkIsrStep event sel s :=
        envStep_of_enabled ((linkIsrEnabled_iff event s).2 ⟨hrun, hie, hattached, hcond⟩)
    _ = { linkEffect event s with sel := sel, ie := true } := linkIsrStep_eq event sel s
    _ = { linkEffect event s with sel := sel } := by simp only [hkept]

theorem envStep_link_of_blocked {s : State} (event : LinkEvent)
    (hblocked : s.usbAttached = false ∨ linkCondition s event = false) (sel : Endpoint) :
    envStep (.link event sel) s = s := by
  refine envStep_of_disabled (Bool.eq_false_iff.2 fun hon => ?_)
  obtain ⟨-, -, hattached, hcond⟩ := (linkIsrEnabled_iff event s).1 hon
  simp [hattached, hcond] at hblocked

theorem envStep_lineCoding {s : State} (hrun : s.status = .running) (hie : s.ie = true)
    (hattached : s.usbAttached = true) (hconf : s.configured = true) (hsusp : s.suspended = false)
    (line : LineCoding) (sel : Endpoint) :
    envStep (.lineCoding line sel) s = { s with line := line, sel := sel } := by
  calc envStep (.lineCoding line sel) s
      = lineIsrStep line sel s :=
        envStep_of_enabled ((lineIsrEnabled_iff s).2 ⟨hrun, hie, hattached, hconf, hsusp⟩)
    _ = { s with line := line, sel := sel, ie := true } := lineIsrStep_eq line sel s
    _ = { s with line := line, sel := sel } := by rw [hie]

theorem envStep_lineCoding_of_blocked {s : State}
    (hblocked : s.usbAttached = false ∨ s.configured = false ∨ s.suspended = true)
    (line : LineCoding) (sel : Endpoint) : envStep (.lineCoding line sel) s = s := by
  refine envStep_of_disabled (Bool.eq_false_iff.2 fun hon => ?_)
  obtain ⟨-, -, hattached, hconf, hsusp⟩ := (lineIsrEnabled_iff s).1 hon
  simp [hattached, hconf, hsusp] at hblocked

/-! ## Keeping the link state (R28) -/

/-- `t` has the link state of `s`. -/
def KeepsLink (s t : State) : Prop := t.configured = s.configured ∧ t.suspended = s.suspended

theorem KeepsLink.trans {s t u : State} (hst : KeepsLink s t) (htu : KeepsLink t u) : KeepsLink s u :=
  ⟨htu.1.trans hst.1, htu.2.trans hst.2⟩

/-- A body that runs through from `s` keeps its link state. -/
def OkKeepsLink (s : State) : Except Stop State → Prop
  | .ok t => KeepsLink s t
  | .error _ => True

theorem OkKeepsLink.ite {s : State} {c : Prop} [Decidable c] {r r' : Except Stop State} (h : OkKeepsLink s r)
    (h' : OkKeepsLink s r') : OkKeepsLink s (if c then r else r') := by
  split
  · exact h
  · exact h'

/-- A step that answers a next state from `s` keeps its link state. -/
def NextKeepsLink (s : State) : StepOutcome → Prop
  | .next t => KeepsLink s t
  | .fault _ => True
  | .refused _ => True

/-- Every step of another agent but a link event's keeps the link state. -/
theorem envStep_keepsLink {e : EnvStep} (hother : ∀ event sel, e ≠ .link event sel) (s : State) :
    KeepsLink s (envStep e s) := by
  unfold envStep
  split
  · cases e with
    | timerHw =>
      show KeepsLink s (timerHwStep s)
      rw [timerHwStep_eq]
      exact ⟨rfl, rfl⟩
    | frameHw => exact ⟨rfl, rfl⟩
    | timerIsr => exact ⟨rfl, rfl⟩
    | sofIsr sel =>
      show KeepsLink s (sofIsrStep sel s)
      obtain ⟨_, h⟩ | ⟨_, _, _, h⟩ | ⟨_, _, _, h⟩ := sofIsrStep_cases sel s <;> rw [h] <;> exact ⟨rfl, rfl⟩
    | link event sel => exact absurd rfl (hother event sel)
    | lineCoding line sel => exact ⟨rfl, rfl⟩
    | hostPoll p => exact ⟨setInEp_configured _ _ _, setInEp_suspended _ _ _⟩
    | hostDeliver p => exact ⟨rfl, rfl⟩
  · exact ⟨rfl, rfl⟩

/-- A MAIN step keeps the link state when its body does: a raised fault writes the status alone (R221). -/
theorem conclude_keepsLink {s : State} {r : Except Stop State} (h : OkKeepsLink s r) :
    NextKeepsLink s (conclude s r) :=
  match r, h with
  | .ok _, h => h
  | .error (.raise _), _ => ⟨rfl, rfl⟩
  | .error (.broken _), _ => trivial

theorem atIdle_keepsLink {s : State} {body : State → Except Stop State} (h : OkKeepsLink s (body s)) :
    NextKeepsLink s (atIdle body s) := by
  unfold atIdle
  split
  · exact conclude_keepsLink h
  · trivial

/-! ### The shared parts of the commands -/

theorem delayHead_keepsLink (ms start : Word) (s : State) : KeepsLink s (delayHead ms start s) := by
  unfold delayHead
  split <;> exact ⟨rfl, rfl⟩

theorem delayCount_keepsLink (ms start now : Word) (s : State) : KeepsLink s (delayCount ms start now s) := by
  unfold delayCount
  split <;> exact delayHead_keepsLink _ _ _

theorem exists_rxGet_keepsLink (s : State) : ∃ v t, rxGet s = .ok (v, t) ∧ KeepsLink s t := by
  cases hlink : linkUsable s
  · exact ⟨_, _, rxGet_unusable hlink, rfl, rfl⟩
  · exact ⟨_, _, rxGet_usable hlink, rfl, rfl⟩

theorem hidAppended_keepsLink (e : InEp) (report : List Byte) (s : State) :
    KeepsLink s (hidAppended e report s) :=
  ⟨setInEp_configured _ _ _, setInEp_suspended _ _ _⟩

/-- A step that sends from `t` keeps the link state when the rest of its command does. -/
theorem conclude_hidSend_keepsLink {s t : State} {e : InEp} {report : List Byte} {stage : Nat} {k : State → State}
    (hst : KeepsLink s t) (hk : ∀ u, KeepsLink u (k u)) :
    NextKeepsLink s (conclude s (hidSend e report stage k t)) := by
  rw [hidSend_eq]
  exact conclude_keepsLink (.ite (hst.trans (hk t)) (.ite hst
    (.ite (hst.trans ((hidAppended_keepsLink e report t).trans (hk _))) trivial)))

/-- The same from the yield of its wait. -/
theorem conclude_hidResume_keepsLink {s : State} {e : InEp} {report : List Byte} {stage start : Nat}
    {k : State → State} (hk : ∀ u, KeepsLink u (k u)) :
    NextKeepsLink s (conclude s (hidResume e report stage start k s)) := by
  rw [hidResume_eq]
  exact conclude_keepsLink (.ite (hk s) (.ite ⟨rfl, rfl⟩
    (.ite ((hidAppended_keepsLink e report s).trans (hk _)) trivial)))

/-- The write loop writes nothing of the link state (`Wrote.frame`). -/
theorem keepsLink_of_wrote {s t : State} {saved : Bool} {buf size count : Nat} (h : Wrote s t saved buf size count) :
    KeepsLink s t := by
  rw [h.frame]
  exact ⟨rfl, rfl⟩

theorem writeLoop_keepsLink (saved : Bool) (buf size count : Nat) {s : State} (hsel : s.sel = .cdcTx) :
    OkKeepsLink s (writeLoop size saved buf size count s) := by
  obtain ⟨t, ht, hwrote⟩ := writeLoop_wrote size saved buf size count s hsel (Nat.le_refl _)
  rw [ht]
  exact keepsLink_of_wrote hwrote

theorem writeStart_keepsLink (buf size : Nat) (s : State) : OkKeepsLink s (writeStart buf size s) := by
  rw [writeStart_eq]
  exact .ite trivial (.ite ⟨rfl, rfl⟩ (.ite (writeLoop_keepsLink s.ie buf size 0 (s := enterSelect .cdcTx s) rfl)
    (.ite (writeLoop_keepsLink s.ie buf size 0 (s := clearTimedOut (enterSelect .cdcTx s)) rfl) ⟨rfl, rfl⟩)))

theorem writeResume_keepsLink (buf size count start : Nat) (s : State) :
    OkKeepsLink s (writeResume buf size count start s) := by
  rw [writeResume, waitResume_eq, ok_bind]
  split
  · exact ⟨rfl, rfl⟩
  · split
    · exact ⟨rfl, rfl⟩
    · split
      · next hwritable =>
        obtain ⟨t, ht, hwrote⟩ := writeAfterWait_ready_wrote size s.ie buf size count start
          (enterSelect_sel InEp.cdcTx.toEndpoint s) (Nat.le_refl _) ((writable_enterSelect _ _ _).trans hwritable)
        rw [ht]
        exact keepsLink_of_wrote (s := enterSelect .cdcTx s) hwrote
      · exact ⟨rfl, rfl⟩

/-! ### The commands -/

theorem finishVoid_keepsLink (s : State) : KeepsLink s (finishVoid s) := ⟨rfl, rfl⟩

theorem yieldAfter_keepsLink (n : Nat) (s : State) : KeepsLink s (yieldAfter n s) := ⟨rfl, rfl⟩

theorem execMillis_keepsLink (s : State) : NextKeepsLink s (execMillis s) := atIdle_keepsLink ⟨rfl, rfl⟩

theorem execMicros_keepsLink (s : State) : NextKeepsLink s (execMicros s) := by
  unfold execMicros
  split
  · exact ⟨rfl, rfl⟩
  · exact ⟨rfl, rfl⟩
  · trivial

theorem execDelay_keepsLink (ms : Word) (s : State) : NextKeepsLink s (execDelay ms s) := by
  unfold execDelay
  split
  · exact ⟨rfl, rfl⟩
  · exact delayHead_keepsLink _ _ (csExit _ s)
  · exact ⟨rfl, rfl⟩
  · exact delayCount_keepsLink _ _ _ (csExit _ s)
  · trivial

theorem execDelayUs_keepsLink (us : Word) (s : State) : NextKeepsLink s (execDelayUs us s) :=
  atIdle_keepsLink ⟨rfl, rfl⟩

theorem execSerAvailable_keepsLink (s : State) : NextKeepsLink s (execSerAvailable s) := by
  refine atIdle_keepsLink ?_
  simp only [linkUsable_enterSelect, rxTotal_eq (enterSelect_sel .cdcRx s)]
  cases linkUsable s <;> exact ⟨rfl, rfl⟩

theorem execSerPeek_keepsLink (s : State) : NextKeepsLink s (execSerPeek s) := by
  refine atIdle_keepsLink ?_
  obtain ⟨v, t, hget, hkept⟩ := exists_rxGet_keepsLink s
  cases s.peekByte with
  | some b => exact ⟨rfl, rfl⟩
  | none =>
    simp only [hget, ok_bind]
    cases v <;> exact hkept

theorem execSerRead_keepsLink (s : State) : NextKeepsLink s (execSerRead s) := by
  refine atIdle_keepsLink ?_
  obtain ⟨v, t, hget, hkept⟩ := exists_rxGet_keepsLink s
  cases s.peekByte with
  | some b => exact ⟨rfl, rfl⟩
  | none =>
    simp only [hget, ok_bind]
    exact hkept

theorem execSerFlush_keepsLink (s : State) : NextKeepsLink s (execSerFlush s) := by
  refine atIdle_keepsLink ?_
  simp only [linkUsable_csEnter, rxReleaseAll_eq (s := select .cdcRx (csEnter s)) rfl]
  cases linkUsable s <;> exact ⟨rfl, rfl⟩

theorem execSerSendNow_keepsLink (s : State) : NextKeepsLink s (execSerSendNow s) := by
  refine atIdle_keepsLink ?_
  simp only [epRelease_eq (e := .cdcTx) (s := select .cdcTx (csEnter s)) rfl, ok_bind, pure_eq_ok]
  exact .ite ⟨by simp, by simp⟩ ⟨rfl, rfl⟩

theorem execSerWrite_keepsLink (buf size : Word) (s : State) : NextKeepsLink s (execSerWrite buf size s) := by
  unfold execSerWrite
  split
  · exact conclude_keepsLink (writeStart_keepsLink _ _ s)
  · exact conclude_keepsLink (writeResume_keepsLink _ _ _ _ s)
  · trivial

theorem accessor_keepsLink (field : State → Word) (s : State) : NextKeepsLink s (accessor field s) :=
  atIdle_keepsLink ⟨rfl, rfl⟩

theorem execSerGetWriteError_keepsLink (s : State) : NextKeepsLink s (execSerGetWriteError s) :=
  atIdle_keepsLink ⟨rfl, rfl⟩

theorem kbSetter_keepsLink (i : Fin 8) (v : Byte) (s : State) : NextKeepsLink s (kbSetter i v s) :=
  atIdle_keepsLink ⟨rfl, rfl⟩

theorem execKbSendNow_keepsLink (s : State) : NextKeepsLink s (execKbSendNow s) := by
  unfold execKbSendNow
  split
  · exact conclude_hidSend_keepsLink ⟨rfl, rfl⟩ finishVoid_keepsLink
  · exact conclude_hidResume_keepsLink finishVoid_keepsLink
  · trivial

theorem execKbReleaseAll_keepsLink (s : State) : NextKeepsLink s (execKbReleaseAll s) := by
  unfold execKbReleaseAll
  split
  · split
    · exact conclude_hidSend_keepsLink ⟨rfl, rfl⟩ finishVoid_keepsLink
    · exact ⟨rfl, rfl⟩
  · exact conclude_hidResume_keepsLink finishVoid_keepsLink
  · trivial

theorem execKbType_keepsLink (mod key : Byte) (s : State) : NextKeepsLink s (execKbType mod key s) := by
  unfold execKbType
  split
  · exact conclude_hidSend_keepsLink ⟨rfl, rfl⟩ (yieldAfter_keepsLink 1)
  · exact conclude_hidResume_keepsLink (yieldAfter_keepsLink 1)
  · exact conclude_hidSend_keepsLink ⟨rfl, rfl⟩ (yieldAfter_keepsLink 2)
  · exact conclude_hidResume_keepsLink (yieldAfter_keepsLink 2)
  · exact conclude_hidSend_keepsLink ⟨rfl, rfl⟩ (yieldAfter_keepsLink 3)
  · exact conclude_hidResume_keepsLink (yieldAfter_keepsLink 3)
  · exact conclude_hidSend_keepsLink ⟨rfl, rfl⟩ finishVoid_keepsLink
  · exact conclude_hidResume_keepsLink finishVoid_keepsLink
  · trivial

theorem execMsMove_keepsLink (x y wheel horiz : Byte) (s : State) : NextKeepsLink s (execMsMove x y wheel horiz s) := by
  unfold execMsMove
  split
  · exact conclude_hidSend_keepsLink ⟨rfl, rfl⟩ finishVoid_keepsLink
  · exact conclude_hidResume_keepsLink finishVoid_keepsLink
  · trivial

theorem changeButtons_keepsLink (new : Byte) (s : State) : NextKeepsLink s (changeButtons new s) := by
  unfold changeButtons
  split
  · split
    · exact conclude_hidSend_keepsLink ⟨rfl, rfl⟩ finishVoid_keepsLink
    · exact ⟨rfl, rfl⟩
  · exact conclude_hidResume_keepsLink finishVoid_keepsLink
  · trivial

theorem execMsClick_keepsLink (b : Byte) (s : State) : NextKeepsLink s (execMsClick b s) := by
  unfold execMsClick
  split
  · exact conclude_hidSend_keepsLink ⟨rfl, rfl⟩ (yieldAfter_keepsLink 1)
  · exact conclude_hidResume_keepsLink (yieldAfter_keepsLink 1)
  · exact conclude_hidSend_keepsLink ⟨rfl, rfl⟩ finishVoid_keepsLink
  · exact conclude_hidResume_keepsLink finishVoid_keepsLink
  · trivial

theorem execMsSetButtons_keepsLink (left right middle back forward : Bool) (s : State) :
    NextKeepsLink s (execMsSetButtons left right middle back forward s) := by
  unfold execMsSetButtons
  split
  · exact conclude_hidSend_keepsLink ⟨rfl, rfl⟩ finishVoid_keepsLink
  · exact conclude_hidResume_keepsLink finishVoid_keepsLink
  · trivial

theorem execJsSendNow_keepsLink (s : State) : NextKeepsLink s (execJsSendNow s) := by
  unfold execJsSendNow
  split
  · exact conclude_hidSend_keepsLink ⟨rfl, rfl⟩ finishVoid_keepsLink
  · exact conclude_hidResume_keepsLink finishVoid_keepsLink
  · trivial

theorem execJsSetByte_keepsLink (idx : Word) (v : Byte) (s : State) : NextKeepsLink s (execJsSetByte idx v s) := by
  refine atIdle_keepsLink ?_
  split
  · exact ⟨rfl, rfl⟩
  · trivial

theorem execSysReboot_keepsLink (s : State) : NextKeepsLink s (execSysReboot s) := atIdle_keepsLink ⟨rfl, rfl⟩

theorem execSysRestart_keepsLink (s : State) : NextKeepsLink s (execSysRestart s) := atIdle_keepsLink ⟨rfl, rfl⟩

theorem execCsEnter_keepsLink (s : State) : NextKeepsLink s (execCsEnter s) := atIdle_keepsLink ⟨rfl, rfl⟩

theorem execCsExit_keepsLink (saved : Bool) (s : State) : NextKeepsLink s (execCsExit saved s) :=
  atIdle_keepsLink ⟨rfl, rfl⟩

/-- No command writes the link state. -/
theorem exec_keepsLink (i : Instr) (s : State) : NextKeepsLink s (exec i s) := by
  cases i with
  | millis => exact execMillis_keepsLink s
  | micros => exact execMicros_keepsLink s
  | delay ms => exact execDelay_keepsLink ms s
  | delayUs us => exact execDelayUs_keepsLink us s
  | serAvailable => exact execSerAvailable_keepsLink s
  | serPeek => exact execSerPeek_keepsLink s
  | serRead => exact execSerRead_keepsLink s
  | serFlush => exact execSerFlush_keepsLink s
  | serWrite buf size => exact execSerWrite_keepsLink buf size s
  | serSendNow => exact execSerSendNow_keepsLink s
  | serBaud => exact accessor_keepsLink (fun s => s.line.baud) s
  | serStopbits => exact accessor_keepsLink (fun s => byteResult s.line.stopbits) s
  | serParitytype => exact accessor_keepsLink (fun s => byteResult s.line.paritytype) s
  | serNumbits => exact accessor_keepsLink (fun s => byteResult s.line.numbits) s
  | serDtr => exact accessor_keepsLink (fun s => boolResult s.line.dtr) s
  | serRts => exact accessor_keepsLink (fun s => boolResult s.line.rts) s
  | serReady => exact accessor_keepsLink (fun s => boolResult (linkReady s)) s
  | serGetWriteError => exact execSerGetWriteError_keepsLink s
  | kbSetModifier v => exact kbSetter_keepsLink _ v s
  | kbSetKey1 v => exact kbSetter_keepsLink _ v s
  | kbSetKey2 v => exact kbSetter_keepsLink _ v s
  | kbSetKey3 v => exact kbSetter_keepsLink _ v s
  | kbSetKey4 v => exact kbSetter_keepsLink _ v s
  | kbSetKey5 v => exact kbSetter_keepsLink _ v s
  | kbSetKey6 v => exact kbSetter_keepsLink _ v s
  | kbSendNow => exact execKbSendNow_keepsLink s
  | kbReleaseAll => exact execKbReleaseAll_keepsLink s
  | kbType mod key => exact execKbType_keepsLink mod key s
  | msMove x y wheel horiz => exact execMsMove_keepsLink x y wheel horiz s
  | msPress b => exact changeButtons_keepsLink _ s
  | msRelease b => exact changeButtons_keepsLink _ s
  | msClick b => exact execMsClick_keepsLink b s
  | msSetButtons left right middle back forward => exact execMsSetButtons_keepsLink left right middle back forward s
  | jsSetByte idx v => exact execJsSetByte_keepsLink idx v s
  | jsSendNow => exact execJsSendNow_keepsLink s
  | sysReboot => exact execSysReboot_keepsLink s
  | sysRestart => exact execSysRestart_keepsLink s
  | csEnter => exact execCsEnter_keepsLink s
  | csExit saved => exact execCsExit_keepsLink saved s

/-! ## The obligations of the exceptions family -/

/-- Settles O35: the three cases of the SOF service, with and without a partial packet at the deadline. -/
theorem sofIsrService : Obligations.SofIsrService := by
  intro s sel hrun hie hpending
  have hstep : envStep (.sofIsr sel) s = sofIsrStep sel s :=
    envStep_of_enabled ((sofIsrEnabled_iff s).2 ⟨hrun, hie, hpending⟩)
  rw [hstep]
  obtain ⟨hdisarmed, heq⟩ | ⟨n, harmed, hlt, heq⟩ | ⟨n, harmed, hle, heq⟩ := sofIsrStep_cases sel s
  · simp [heq, hdisarmed, hie]
  · simp [heq, harmed, hie, Nat.not_le.2 hlt]
  · simp +contextual [heq, harmed, hie, hle, InEndpoint.release]

/-- Settles O53: each event's effect where its condition holds and nothing where it fails; then `envStep_keepsLink` and
`exec_keepsLink` for every other step. -/
theorem linkEvents : Obligations.LinkEvents := by
  refine ⟨fun s sel hrun hie => ⟨?_, ?_, ?_, ?_, ?_, ?_, ?_, ?_, ?_, ?_⟩, fun e s hother => envStep_keepsLink hother s,
    fun i s t hnext => ?_⟩
  · exact fun hatt hsusp => envStep_link .configure hrun hie hatt (by simp [linkCondition, hsusp]) sel
  · exact fun h => envStep_link_of_blocked .configure (by simpa [linkCondition] using h) sel
  · exact fun hatt hconf => envStep_link .deconfigure hrun hie hatt hconf sel
  · exact fun h => envStep_link_of_blocked .deconfigure h sel
  · exact fun hatt hsusp => envStep_link .suspend hrun hie hatt (by simp [linkCondition, hsusp]) sel
  · exact fun h => envStep_link_of_blocked .suspend (by simpa [linkCondition] using h) sel
  · exact fun hatt hsusp => envStep_link .resume hrun hie hatt hsusp sel
  · exact fun h => envStep_link_of_blocked .resume h sel
  · exact fun l hatt hconf hsusp => envStep_lineCoding hrun hie hatt hconf hsusp l sel
  · exact fun l h => envStep_lineCoding_of_blocked h l sel
  · have hkept := exec_keepsLink i s
    rwa [hnext] at hkept

end Sys2Proof.Machine.UsbIsrLaws
end

section
/-! SUPPORT. The encoding (30_encoding.md): the operand fields of R82 undo the placing of R86, each unit's decoder is
inverted once, and the obligations on the encoder, the decoder and the assembler. -/

namespace Sys2Proof.Machine.EncodingLaws

open SerialLaws (decode_of_unitSerial)
open HidLaws (decode_of_unitKeyboard decode_of_unitJoystick)
open SystemLaws (decode_of_unitSystem)

/-! ## Operand fields of encoded operands (R82, R86) -/

@[simp] theorem byte0_byteArg (v : Byte) : byte0 (byteArg v) = v := by
  apply BitVec.eq_of_toNat_eq
  have := v.isLt
  simp only [byte0, byteArg, BitVec.extractLsb'_toNat, BitVec.toNat_setWidth, Nat.shiftRight_zero]
  omega

theorem buttonsOk_buttonBits (a : Word) : buttonsOk (buttonBits a) = true := by
  simp [buttonsOk, buttonBits, BitVec.and_assoc]

/-- A mask R82 can produce is read back whole. -/
theorem buttonBits_byteArg {b : Byte} (h : buttonsOk b = true) : buttonBits (byteArg b) = b := by
  simpa [buttonBits, buttonsOk] using h

theorem toNat_append_byte {n : Nat} (a : BitVec n) (b : Byte) : (a ++ b).toNat = 2 ^ 8 * a.toNat + b.toNat := by
  rw [BitVec.toNat_append, Nat.shiftLeft_eq, Nat.mul_comm, Nat.two_pow_add_eq_or_of_lt b.isLt]

/-- The four bytes of MS_MOVE as a number. -/
theorem toNat_moveArg (x y w h : Byte) : (moveArg x y w h).toNat =
    x.toNat + 2 ^ 8 * y.toNat + 2 ^ 16 * w.toNat + 2 ^ 24 * h.toNat := by
  show (h ++ w ++ y ++ x).toNat = _
  rw [toNat_append_byte, toNat_append_byte, toNat_append_byte]
  omega

section MoveBytes

variable (x y w h : Byte)

@[simp] theorem byte0_moveArg : byte0 (moveArg x y w h) = x := by
  apply BitVec.eq_of_toNat_eq
  rw [byte0, BitVec.extractLsb'_toNat, toNat_moveArg, Nat.shiftRight_eq_div_pow]
  omega

@[simp] theorem byte1_moveArg : byte1 (moveArg x y w h) = y := by
  apply BitVec.eq_of_toNat_eq
  rw [byte1, BitVec.extractLsb'_toNat, toNat_moveArg, Nat.shiftRight_eq_div_pow]
  omega

@[simp] theorem byte2_moveArg : byte2 (moveArg x y w h) = w := by
  apply BitVec.eq_of_toNat_eq
  rw [byte2, BitVec.extractLsb'_toNat, toNat_moveArg, Nat.shiftRight_eq_div_pow]
  omega

@[simp] theorem byte3_moveArg : byte3 (moveArg x y w h) = h := by
  apply BitVec.eq_of_toNat_eq
  rw [byte3, BitVec.extractLsb'_toNat, toNat_moveArg, Nat.shiftRight_eq_div_pow]
  omega

end MoveBytes

/-- The five buttons of MS_SET_BUTTONS as a number, and each in its bit. -/
theorem buttonsArg_bits (l r m b f : Bool) :
    (buttonsArg l r m b f).toNat = l.toNat + 2 * r.toNat + 4 * m.toNat + 8 * b.toNat + 16 * f.toNat ∧
    (buttonsArg l r m b f).getLsbD 0 = l ∧ (buttonsArg l r m b f).getLsbD 1 = r ∧
    (buttonsArg l r m b f).getLsbD 2 = m ∧ (buttonsArg l r m b f).getLsbD 3 = b ∧
    (buttonsArg l r m b f).getLsbD 4 = f := by
  revert l r m b f
  decide


/-! ## The decoder of each unit (R81, R83) -/

/-- In unit 3 the function value alone chooses the command. -/
theorem decode_of_unitMouse {cmd : Byte} (hunit : unitOf cmd = 3) (a0 a1 : Word) :
    decode ⟨cmd, a0, a1⟩ = decodeMouse (funcOf cmd) a0 := by
  simp [decode, hunit]

theorem decodeMouse_moveArg (x y w h : Byte) : decodeMouse 0 (moveArg x y w h) = .ok (.msMove x y w h) := by
  simp [decodeMouse]

theorem decodeMouse_buttonsArg (l r m b f : Bool) :
    decodeMouse 4 (buttonsArg l r m b f) = .ok (.msSetButtons l r m b f) := by
  obtain ⟨-, hl, hr, hm, hb, hf⟩ := buttonsArg_bits l r m b f
  simp only [decodeMouse, hl, hr, hm, hb, hf]

theorem decodeSystem_boolArg (s : Bool) : decodeSystem 3 (boolArg s) = .ok (.csExit s) := by
  cases s <;> rfl

/-- Decoding a command to `i` shows `i` well formed and of `CMD` value `16 * unit + func`. -/
def DecodesTo (unit func : Nat) (i : Instr) : Prop := i.wf = true ∧ i.opcode.toNat = 16 * unit + func

section UnitDecoders

variable {func : Nat} {a0 a1 : Word} {i : Instr}

theorem decodeClock_ok (h : decodeClock func a0 = .ok i) : DecodesTo 0 func i := by
  unfold decodeClock at h
  split at h <;> cases h <;> exact ⟨rfl, rfl⟩

theorem decodeSerial_ok (h : decodeSerial func a0 a1 = .ok i) : DecodesTo 1 func i := by
  unfold decodeSerial at h
  split at h <;> cases h <;> exact ⟨rfl, rfl⟩

theorem decodeKeyboard_ok (h : decodeKeyboard func a0 a1 = .ok i) : DecodesTo 2 func i := by
  unfold decodeKeyboard at h
  split at h <;> cases h <;> exact ⟨rfl, rfl⟩

theorem decodeMouse_ok (h : decodeMouse func a0 = .ok i) : DecodesTo 3 func i := by
  unfold decodeMouse at h
  split at h <;> cases h
  · exact ⟨rfl, rfl⟩
  · exact ⟨buttonsOk_buttonBits a0, rfl⟩
  · exact ⟨buttonsOk_buttonBits a0, rfl⟩
  · exact ⟨buttonsOk_buttonBits a0, rfl⟩
  · exact ⟨rfl, rfl⟩

theorem decodeJoystick_ok (h : decodeJoystick func a0 a1 = .ok i) : DecodesTo 4 func i := by
  unfold decodeJoystick at h
  split at h <;> cases h <;> exact ⟨rfl, rfl⟩

theorem decodeSystem_ok (h : decodeSystem func a0 = .ok i) : DecodesTo 5 func i := by
  unfold decodeSystem at h
  split at h <;> cases h <;> exact ⟨rfl, rfl⟩

theorem decodeClock_error : (∃ e, decodeClock func a0 = .error e) ↔ 4 ≤ func := by
  unfold decodeClock
  split <;> grind

theorem decodeSerial_error : (∃ e, decodeSerial func a0 a1 = .error e) ↔ 14 ≤ func := by
  unfold decodeSerial
  split <;> grind

theorem decodeKeyboard_error : (∃ e, decodeKeyboard func a0 a1 = .error e) ↔ 10 ≤ func := by
  unfold decodeKeyboard
  split <;> grind

theorem decodeMouse_error : (∃ e, decodeMouse func a0 = .error e) ↔ 5 ≤ func := by
  unfold decodeMouse
  split <;> grind

theorem decodeJoystick_error : (∃ e, decodeJoystick func a0 a1 = .error e) ↔ 2 ≤ func := by
  unfold decodeJoystick
  split <;> grind

theorem decodeSystem_error : (∃ e, decodeSystem func a0 = .error e) ↔ 4 ≤ func := by
  unfold decodeSystem
  split <;> grind

end UnitDecoders

/-- What decodes is well formed and has the `CMD` value it was read from. -/
theorem decode_ok {c : Command} {i : Instr} (h : decode c = .ok i) : i.wf = true ∧ i.opcode = c.cmd := by
  have hto : DecodesTo (unitOf c.cmd) (funcOf c.cmd) i := by
    unfold decode at h
    split at h
    case h_1 hunit => exact hunit ▸ decodeClock_ok h
    case h_2 hunit => exact hunit ▸ decodeSerial_ok h
    case h_3 hunit => exact hunit ▸ decodeKeyboard_ok h
    case h_4 hunit => exact hunit ▸ decodeMouse_ok h
    case h_5 hunit => exact hunit ▸ decodeJoystick_ok h
    case h_6 hunit => exact hunit ▸ decodeSystem_ok h
    case h_7 => cases h
  obtain ⟨hwf, hcmd⟩ := hto
  refine ⟨hwf, BitVec.eq_of_toNat_eq ?_⟩
  rw [hcmd, unitOf, funcOf, Nat.div_add_mod]

/-- The values the decoder rejects, by unit and function (R84). -/
theorem decode_error (c : Command) : (∃ e, decode c = .error e) ↔
    (unitOf c.cmd = 0 ∧ 4 ≤ funcOf c.cmd) ∨ (unitOf c.cmd = 1 ∧ 14 ≤ funcOf c.cmd) ∨
    (unitOf c.cmd = 2 ∧ 10 ≤ funcOf c.cmd) ∨ (unitOf c.cmd = 3 ∧ 5 ≤ funcOf c.cmd) ∨
    (unitOf c.cmd = 4 ∧ 2 ≤ funcOf c.cmd) ∨ (unitOf c.cmd = 5 ∧ 4 ≤ funcOf c.cmd) ∨ 6 ≤ unitOf c.cmd := by
  unfold decode
  split
  case h_1 hunit => simp [hunit, decodeClock_error]
  case h_2 hunit => simp [hunit, decodeSerial_error]
  case h_3 hunit => simp [hunit, decodeKeyboard_error]
  case h_4 hunit => simp [hunit, decodeMouse_error]
  case h_5 hunit => simp [hunit, decodeJoystick_error]
  case h_6 hunit => simp [hunit, decodeSystem_error]
  case h_7 => grind

/-! ## The assembler (R86, R87) -/

theorem delta?_of_range {v : Int} (hlo : -128 ≤ v) (hhi : v ≤ 127) :
    Assembler.delta? v = some (BitVec.ofInt 8 v) := if_pos ⟨hlo, hhi⟩

theorem bit?_toNat (b : Bool) : Assembler.bit? (b.toNat : Int) = some b := by
  cases b <;> rfl

theorem word?_toNat (v : Word) : Assembler.word? (v.toNat : Int) = some v := by
  have h : Assembler.word? (v.toNat : Int) =
    if v.toNat < 2 ^ 32 then some (BitVec.ofNat 32 v.toNat) else none := rfl
  rw [h, if_pos v.isLt, BitVec.ofNat_toNat, BitVec.setWidth_eq]

theorem assemble_msMove {x y w h : Int} {bx bY bw bh : Byte} (hx : Assembler.delta? x = some bx)
    (hy : Assembler.delta? y = some bY) (hw : Assembler.delta? w = some bw) (hh : Assembler.delta? h = some bh) :
    Assembler.assemble "MS_MOVE" [x, y, w, h] = some ⟨0x30, moveArg bx bY bw bh, 0⟩ := by
  have hrow : Assembler.rows.find? (fun r => r.mnemonic == "MS_MOVE") = some ⟨"MS_MOVE", 0x30, .deltas⟩ := by decide
  simp [Assembler.assemble, hrow, Assembler.place, hx, hy, hw, hh]

theorem assemble_msSetButtons {l r m b f : Int} {bl br bm bb bf : Bool} (hl : Assembler.bit? l = some bl)
    (hr : Assembler.bit? r = some br) (hm : Assembler.bit? m = some bm) (hb : Assembler.bit? b = some bb)
    (hf : Assembler.bit? f = some bf) :
    Assembler.assemble "MS_SET_BUTTONS" [l, r, m, b, f] = some ⟨0x34, buttonsArg bl br bm bb bf, 0⟩ := by
  have hrow : Assembler.rows.find? (fun r => r.mnemonic == "MS_SET_BUTTONS") =
    some ⟨"MS_SET_BUTTONS", 0x34, .buttons⟩ := by decide
  simp [Assembler.assemble, hrow, Assembler.place, hl, hr, hm, hb, hf]

theorem commands_kbTap {v : Int} {k : Word} (hv : Assembler.word? v = some k) : Assembler.commands "KB_TAP" [v] =
    some [⟨0x21, k, 0⟩, ⟨0x27, 0, 0⟩, ⟨0x21, 0, 0⟩, ⟨0x27, 0, 0⟩] := by
  have hset : Assembler.rows.find? (fun r => r.mnemonic == "KB_SET_KEY1") = some ⟨"KB_SET_KEY1", 0x21, .one⟩ := by decide
  have hsend : Assembler.rows.find? (fun r => r.mnemonic == "KB_SEND_NOW") = some ⟨"KB_SEND_NOW", 0x27, .none⟩ := by decide
  have hzero : Assembler.word? 0 = some 0 := rfl
  simp [Assembler.commands, Assembler.expand, Assembler.assemble, hset, hsend, Assembler.place, hv, hzero]

theorem commands_serPrint {u v : Int} {buf size : Word} (hu : Assembler.word? u = some buf)
    (hv : Assembler.word? v = some size) : Assembler.commands "SER_PRINT" [u, v] =
    some [⟨0x14, buf, size⟩, ⟨0x15, 0, 0⟩] := by
  have hwrite : Assembler.rows.find? (fun r => r.mnemonic == "SER_WRITE") = some ⟨"SER_WRITE", 0x14, .two⟩ := by decide
  have hsend : Assembler.rows.find? (fun r => r.mnemonic == "SER_SEND_NOW") = some ⟨"SER_SEND_NOW", 0x15, .none⟩ := by
    decide
  simp [Assembler.commands, Assembler.expand, Assembler.assemble, hwrite, hsend, Assembler.place, hu, hv]

/-! ## The obligations on the encoding -/

/-- Settles O2: each command's unit decoder at its function value, with each operand field read back from where it was
placed. -/
theorem decodeEncodeAgree : Obligations.DecodeEncodeAgree := by
  intro i hwf
  cases i with
  | millis | micros | delay | delayUs =>
    simp [encode, Instr.opcode, Instr.encArg0, decode, unitOf, funcOf, decodeClock]
  | serAvailable | serPeek | serRead | serFlush | serWrite | serSendNow | serBaud | serStopbits | serParitytype
  | serNumbits | serDtr | serRts | serReady | serGetWriteError =>
    simp [encode, Instr.opcode, Instr.encArg0, Instr.encArg1, decode, unitOf, funcOf, decodeSerial]
  | kbSetModifier | kbSetKey1 | kbSetKey2 | kbSetKey3 | kbSetKey4 | kbSetKey5 | kbSetKey6 | kbSendNow | kbReleaseAll
  | kbType =>
    simp [encode, Instr.opcode, Instr.encArg0, Instr.encArg1, decode, unitOf, funcOf, decodeKeyboard]
  | msMove x y w h => exact (decode_of_unitMouse (by decide : unitOf 0x30 = 3) _ 0).trans (decodeMouse_moveArg x y w h)
  | msPress b | msRelease b | msClick b =>
    simp [encode, Instr.opcode, Instr.encArg0, decode, unitOf, funcOf, decodeMouse, buttonBits_byteArg (b := b) hwf]
  | msSetButtons l r m b f =>
    exact (decode_of_unitMouse (by decide : unitOf 0x34 = 3) _ 0).trans (decodeMouse_buttonsArg l r m b f)
  | jsSetByte | jsSendNow =>
    simp [encode, Instr.opcode, Instr.encArg0, Instr.encArg1, decode, unitOf, funcOf, decodeJoystick]
  | sysReboot | sysRestart | csEnter =>
    simp [encode, Instr.opcode, Instr.encArg0, decode, unitOf, funcOf, decodeSystem]
  | csExit s => exact (decode_of_unitSystem (by decide : unitOf 0x53 = 5) _ 0).trans (decodeSystem_boolArg s)

/-- Settles O3: the opcode map by evaluating the six unit decoders; what decodes by `decode_ok`. -/
theorem opcodeMap : Obligations.OpcodeMap := by
  refine ⟨fun a0 a1 => ?_, fun c i h => decode_ok h⟩
  simp [decode, unitOf, funcOf, decodeClock, decodeSerial, decodeKeyboard, decodeMouse, decodeJoystick, decodeSystem,
    byte0, byte1, byte2, byte3, buttonBits, buttonMask]

/-- Settles O5: the operands are in range, so each field of the assembled command is read back. -/
theorem assembledMouseOperands : Obligations.AssembledMouseOperands := by
  refine ⟨fun x y w h hx hx' hy hy' hw hw' hh hh' => ?_, fun l r m b f => ?_⟩
  · refine ⟨_, assemble_msMove (delta?_of_range hx hx') (delta?_of_range hy hy') (delta?_of_range hw hw')
      (delta?_of_range hh hh'), ?_, toNat_moveArg _ _ _ _⟩
    exact (decode_of_unitMouse (by decide) _ _).trans (decodeMouse_moveArg _ _ _ _)
  · refine ⟨_, assemble_msSetButtons (bit?_toNat l) (bit?_toNat r) (bit?_toNat m) (bit?_toNat b) (bit?_toNat f), ?_,
      (buttonsArg_bits l r m b f).1⟩
    exact (decode_of_unitMouse (by decide) _ _).trans (decodeMouse_buttonsArg l r m b f)

/-- Settles O1: closed words, evaluated. -/
theorem specWordsDecode : Obligations.SpecWordsDecode := by
  unfold Obligations.SpecWordsDecode
  decide

/-- Settles O6: the fixed expansions by evaluation, the other two for every 32-bit operand. -/
theorem pseudoExpansions : Obligations.PseudoExpansions :=
  ⟨by decide, by decide, by decide, fun k => commands_kbTap (word?_toNat k),
    fun buf size => commands_serPrint (word?_toNat buf) (word?_toNat size)⟩

end Sys2Proof.Machine.EncodingLaws
end

section
/-! SUPPORT. One step of the machine by what the schedule names (30_encoding.md R80, 00_scope.md R10), reset and boot, and
the obligations on them. -/

namespace Sys2Proof.Machine.StepLaws

open ClockLaws (envStep_of_enabled envStep_of_disabled)
open EncodingLaws (decode_error)

/-! ## The step by its schedule (log 2) -/

theorem step_of_nil {s : State} (hsched : s.sched = []) : step s = mainStep s := by
  simp only [step, hsched]

theorem step_of_main {s : State} {rest : List AgentStep} (hsched : s.sched = .main :: rest) :
    step s = mainScheduled { s with sched := rest } := by
  simp only [step, hsched]

theorem step_of_env {s : State} {e : EnvStep} {rest : List AgentStep} (hsched : s.sched = .env e :: rest) :
    step s = .next (envStep e { s with sched := rest }) := by
  simp only [step, hsched]

/-- Whether another agent's step is enabled does not depend on the schedule. -/
theorem envEnabled_withSched (e : EnvStep) (s : State) (rest : List AgentStep) :
    envEnabled e { s with sched := rest } = envEnabled e s := by
  cases e with
  | hostPoll p => cases p <;> rfl
  | _ => rfl

/-! ## MAIN's step -/

section Main

variable {s : State} {c : Command} {i : Instr}

theorem mainStep_of_fetch (hrun : s.status = .running) (hboot : s.booted = true) (hfetch : fetch s = some c) :
    mainStep s = runCommand c s := by
  simp only [mainStep, hrun, hboot, if_true, hfetch]

theorem mainStep_of_unbooted (hrun : s.status = .running) (hboot : s.booted = false) :
    mainStep s = .next (boot s) := by
  simp [mainStep, hrun, hboot]

theorem mainStep_of_stopped (hstop : s.status ≠ .running) : mainStep s = .fault (.halted s.status) := by
  unfold mainStep
  split
  · contradiction
  · rfl

theorem lt_length_of_fetch (hfetch : fetch s = some c) : s.cix < s.prog.length :=
  (List.getElem?_eq_some_iff.1 hfetch).1

theorem mainEnabled_of_fetch (hrun : s.status = .running) (hfetch : fetch s = some c) : mainEnabled s = true := by
  simp [mainEnabled, hrun, lt_length_of_fetch hfetch]

theorem mainScheduled_of_fetch (hrun : s.status = .running) (hboot : s.booted = true) (hfetch : fetch s = some c) :
    mainScheduled s = runCommand c s := by
  rw [mainScheduled, mainEnabled_of_fetch hrun hfetch, if_pos rfl, mainStep_of_fetch hrun hboot hfetch]

theorem mainScheduled_of_unbooted (hrun : s.status = .running) (hboot : s.booted = false) :
    mainScheduled s = .next (boot s) := by
  have henabled : mainEnabled s = true := by simp [mainEnabled, hrun, hboot]
  rw [mainScheduled, henabled, if_pos rfl, mainStep_of_unbooted hrun hboot]

/-- An idle block latches the command and starts it. -/
theorem runCommand_of_idle (hidle : s.phase = .idle) (hdecode : decode c = .ok i) :
    runCommand c s = exec i (latch c s) := by
  simp [runCommand, hidle, hdecode]

/-- A running command goes on. -/
theorem runCommand_of_busy (hbusy : s.phase ≠ .idle) (hdecode : decode c = .ok i) : runCommand c s = exec i s := by
  simp [runCommand, hbusy, hdecode]

/-- On an idle block a command that does not decode latches its registers and faults (R84). -/
theorem runCommand_of_reserved (hidle : s.phase = .idle) (hreserved : ∃ e, decode c = .error e) :
    runCommand c s = .next (raiseFault .illegalCmd (latch c s)) := by
  obtain ⟨e, he⟩ := hreserved
  simp [runCommand, hidle, he]

end Main

/-! ## Placing a command (log 3) -/

/-- The placed command is the one at its position. -/
theorem placeAt_getElem? (prog : List Command) (n : Nat) (c : Command) : (placeAt prog n c)[n]? = some c := by
  have hlen : (prog.take n ++ List.replicate (n - prog.length) c).length = n := by
    simp only [List.length_append, List.length_take, List.length_replicate]
    omega
  rw [placeAt, List.getElem?_append_right (Nat.le_of_eq hlen), hlen, Nat.sub_self, List.getElem?_cons_zero]

theorem decode_of_decodeTableWord {nbits w : Nat} {i : Instr} (h : decodeTableWord nbits w = some i) :
    decode (commandOfTableWord nbits w) = .ok i := by
  unfold decodeTableWord at h
  split at h
  · next hok => rw [hok, Option.some.inj h]
  · cases h

/-! ## The invariant at reset (R260) -/

theorem endpointOk_empty (c : Config) (e : InEp) : EndpointOk c e .empty :=
  ⟨Nat.zero_le _, Nat.zero_le _, fun h => absurd rfl h, nofun, nofun⟩

theorem blockInv_resetWith {c : Config} {d : ResetDraws} (hwf : c.WF) (hframe : d.frame < 2 ^ c.frameBits)
    (hmem : Memory.wf d.mem) (hrange : ∀ b ∈ d.mem, b.1 < 2 ^ c.addrBits) : BlockInv (State.resetWith c d) where
  config := hwf
  fraction := Nat.zero_lt_of_lt hwf.2.1
  tcnt := Nat.zero_le _
  frame := hframe
  endpoints := fun e => by cases e <;> exact endpointOk_empty c _
  rxFits := Nat.zero_le _
  rxBanks := nofun
  hidEmpty := ⟨rfl, rfl, rfl⟩
  cdcPartial := hwf.2.2.2.2.1.1
  deadline := nofun
  buttons := (by decide : buttonsOk 0 = true)
  kbReserved := rfl
  memForm := hmem
  memRange := hrange
  latched := fun h => absurd rfl h
  phase := trivial

/-! ## The obligations on the step, reset and boot -/

/-- Settles O4: `decode_error` with the unit and function as quotient and remainder of `CMD`, and `runCommand`'s branch
for what does not decode. -/
theorem reservedCommandsFault : Obligations.ReservedCommandsFault := by
  refine fun c => ⟨?_, fun s hrun hboot hidle hfetch hreserved => ⟨fun hsched => ?_, fun rest hsched => ?_⟩⟩
  · rw [decode_error, unitOf, funcOf]
    have := c.cmd.isLt
    omega
  · rw [step_of_nil hsched, mainStep_of_fetch hrun hboot hfetch]
    exact runCommand_of_reserved hidle hreserved
  · rw [step_of_main hsched, mainScheduled_of_fetch (s := { s with sched := rest }) hrun hboot hfetch]
    exact runCommand_of_reserved (s := { s with sched := rest }) hidle hreserved

/-- Settles O7: MAIN unscheduled and scheduled, on an idle and on a busy block; another agent by its enabling, which no
schedule entry changes. -/
theorem stepRunsDecoded : Obligations.StepRunsDecoded := by
  refine ⟨fun s c i hrun hboot hfetch hdecode => ⟨fun hsched hidle => ?_, fun hsched hbusy => ?_,
    fun rest hsched hidle => ?_, fun rest hsched hbusy => ?_⟩, fun s e rest hsched => ⟨fun hon => ?_, fun hoff => ?_⟩⟩
  · rw [step_of_nil hsched, mainStep_of_fetch hrun hboot hfetch]
    exact runCommand_of_idle hidle hdecode
  · rw [step_of_nil hsched, mainStep_of_fetch hrun hboot hfetch, runCommand_of_busy hbusy hdecode]
  · rw [step_of_main hsched, mainScheduled_of_fetch (s := { s with sched := rest }) hrun hboot hfetch]
    exact runCommand_of_idle (s := { s with sched := rest }) hidle hdecode
  · rw [step_of_main hsched, mainScheduled_of_fetch (s := { s with sched := rest }) hrun hboot hfetch]
    exact runCommand_of_busy (s := { s with sched := rest }) hbusy hdecode
  · rw [step_of_env hsched, envStep_of_enabled ((envEnabled_withSched e s rest).trans hon)]
  · rw [step_of_env hsched, envStep_of_disabled ((envEnabled_withSched e s rest).trans hoff)]

/-- Settles O8: the step takes the placed entry of the schedule, and the command placed at `cix` is the one fetched. -/
theorem placedWordRuns : Obligations.PlacedWordRuns := by
  intro s nbits w i hword
  have hdecode := decode_of_decodeTableWord hword
  generalize hc : commandOfTableWord nbits w = c at hdecode
  let p : State := { placeNext c s with sched := s.sched }
  have hcix : p.cix = s.cix := by cases hboot : s.booted <;> simp [p, placeNext, hboot]
  have hbooted : p.booted = true := by cases hboot : s.booted <;> simp [p, placeNext, hboot]
  have hfetch : fetch p = some c := placeAt_getElem? _ _ _
  refine ⟨latch c p, ?_, rfl, rfl, hbooted, hcix, hfetch, rfl, fun hboot => ?_⟩
  · have hsched : (placeNext c s).sched = .main :: s.sched := by
      cases hboot : s.booted <;> simp [placeNext, hboot]
    rw [State.withFetchWord, hc, step_of_main hsched]
    exact (mainScheduled_of_fetch (s := p) rfl hbooted hfetch).trans (runCommand_of_idle rfl hdecode)
  · simp [p, placeNext, hboot]

/-- Settles O11: the values by evaluation, the invariant by `blockInv_resetWith`. -/
theorem resetState : Obligations.ResetState := by
  intro c d
  refine ⟨⟨rfl, rfl, rfl, rfl, rfl, rfl, rfl, rfl, rfl, rfl, rfl, rfl⟩, ⟨rfl, rfl, rfl, rfl, rfl, rfl, rfl, rfl, rfl, rfl,
    rfl, rfl, rfl, ?_, rfl, rfl, rfl, rfl, rfl, rfl, rfl, rfl, rfl⟩, blockInv_resetWith⟩
  intro e
  cases e <;> exact ⟨rfl, rfl, rfl⟩

/-- Settles O12: the suggested configuration is well formed and the zero draws are in their ranges. -/
theorem resetMeetsInvariant : Obligations.ResetMeetsInvariant :=
  blockInv_resetWith (by decide) (by decide) (by decide) (by decide)

/-- Settles O13: MAIN's branch for a block that has not booted. -/
theorem bootStep : Obligations.BootStep := by
  refine fun s hrun hboot => ⟨fun hsched => ?_, fun rest hsched => ?_⟩
  · rw [step_of_nil hsched, mainStep_of_unbooted hrun hboot, boot]
  · rw [step_of_main hsched, mainScheduled_of_unbooted (s := { s with sched := rest }) hrun hboot, boot]

end Sys2Proof.Machine.StepLaws
end

section
/-! SUPPORT. The agents other than MAIN (40_clock.md, 41_endpoint.md section 5, 60_exceptions.md): when each is enabled,
one inversion of what a step of any of them can do, and the obligations that follow. -/

namespace Sys2Proof.Machine.AgentLaws

open ClockLaws (envStep_of_enabled envStep_of_disabled timerIsrEnabled_iff)
open SystemLaws (envStep_of_stopped hostPollEnabled_iff)
open UsbIsrLaws (sofIsrEnabled_iff linkIsrEnabled_iff lineIsrEnabled_iff sofIsrService)
open StepLaws (step_of_nil step_of_main mainStep_of_stopped)

/-! ## When an agent is enabled -/

theorem timerHwEnabled_iff (s : State) :
    timerHwEnabled s = true ↔ s.timerRunning = true ∧ s.status = .running ∧ s.phase.windowFull = false := by
  simp [timerHwEnabled, and_assoc]

theorem frameHwEnabled_iff (s : State) :
    frameHwEnabled s = true ↔ s.usbAttached = true ∧ s.suspended = false ∧ s.status = .running := by
  simp [frameHwEnabled, and_assoc]

theorem hostDeliverEnabled_iff (p : List Byte) (s : State) : hostDeliverEnabled p s = true ↔
    busUp s = true ∧ s.status = .running ∧ s.rx.length < s.cfg.banks.cdcRx ∧ p.length ≤ s.cfg.size.cdcRx := by
  simp [hostDeliverEnabled, and_assoc]

/-- A step that is enabled only under `q` does nothing without it. -/
theorem envStep_of_not {e : EnvStep} {s : State} {q : Prop} (hiff : envEnabled e s = true ↔ q) (hnot : ¬ q) :
    envStep e s = s :=
  envStep_of_disabled (Bool.eq_false_iff.2 fun hon => hnot (hiff.1 hon))

/-! ## What a step of another agent can do -/

/-- A step of another agent from `s`: nothing, or its effect where it is enabled. -/
inductive EnvCase (s : State) : EnvStep → State → Prop
  | disabled (e : EnvStep) (hoff : envEnabled e s = false) : EnvCase s e s
  | timerHw (hon : timerHwEnabled s = true) : EnvCase s .timerHw { s with
      tcnt := if s.tcnt = s.cfg.tcntMax then 0 else s.tcnt + 1
      tov := if s.tcnt = s.cfg.tcntMax then true else s.tov
      phase := s.phase.noteTick }
  | frameHw (hon : frameHwEnabled s = true) :
      EnvCase s .frameHw { s with frame := addMod s.cfg.frameBits s.frame 1, sofPending := true }
  | timerIsr (hon : timerIsrEnabled s = true) : EnvCase s .timerIsr { s with
      tov := false
      microsCount := (onTimerTick s).microsCount
      millisCount := (onTimerTick s).millisCount
      fractionCount := (onTimerTick s).fractionCount }
  | sofUnarmed (sel : Endpoint) : EnvCase s (.sofIsr sel) { s with sofPending := false, sel := sel }
  | sofCounts (sel : Endpoint) (k : Nat) (harmed : s.flushRemaining = some k) (hlt : 1 < k) :
      EnvCase s (.sofIsr sel) { s with sofPending := false, sel := sel, flushRemaining := some (k - 1) }
  | sofReleases (sel : Endpoint) : EnvCase s (.sofIsr sel)
      { s with sofPending := false, sel := sel, flushRemaining := none, cdcTx := s.cdcTx.release }
  | link (event : LinkEvent) (sel : Endpoint) : EnvCase s (.link event sel) { linkEffect event s with sel := sel }
  | lineCoding (line : LineCoding) (sel : Endpoint) :
      EnvCase s (.lineCoding line sel) { s with line := line, sel := sel }
  | hostPoll (p : InEp) : EnvCase s (.hostPoll p) (s.setInEp p (s.inEp p).poll)
  | hostDeliver (p : List Byte) (hon : hostDeliverEnabled p s = true) :
      EnvCase s (.hostDeliver p) { s with rx := s.rx ++ [p] }

/-- An ISR runs only with `IE = 1` and returns with it, so it leaves `IE` as it was. -/
theorem envStep_case (e : EnvStep) (s : State) : EnvCase s e (envStep e s) := by
  cases hon : envEnabled e s
  · rw [envStep_of_disabled hon]
    exact .disabled e hon
  rw [envStep_of_enabled hon]
  cases e with
  | timerHw =>
    rw [envEffect, timerHwStep_eq]
    exact .timerHw hon
  | frameHw => exact .frameHw hon
  | timerIsr =>
    obtain ⟨-, hie, -⟩ := (timerIsrEnabled_iff s).1 hon
    rw [envEffect, timerIsrStep_eq, ← hie]
    exact .timerIsr hon
  | sofIsr sel =>
    obtain ⟨-, hie, -⟩ := (sofIsrEnabled_iff s).1 hon
    rw [envEffect]
    obtain ⟨_, h⟩ | ⟨k, harmed, hlt, h⟩ | ⟨k, _, _, h⟩ := sofIsrStep_cases sel s <;> rw [h, ← hie]
    · exact .sofUnarmed sel
    · exact .sofCounts sel k harmed hlt
    · exact .sofReleases sel
  | link event sel =>
    obtain ⟨-, hie, -⟩ := (linkIsrEnabled_iff event s).1 hon
    have hkept : (linkEffect event s).ie = true := by cases event <;> exact hie
    rw [envEffect, linkIsrStep_eq, ← hkept]
    exact .link event sel
  | lineCoding line sel =>
    obtain ⟨-, hie, -⟩ := (lineIsrEnabled_iff s).1 hon
    rw [envEffect, lineIsrStep_eq, ← hie]
    exact .lineCoding line sel
  | hostPoll p => exact .hostPoll p
  | hostDeliver p => exact .hostDeliver p hon

/-- The fields another agent may write; every other one is that of `s`. -/
def EnvWrites (s t : State) : Prop := t = { s with
  phase := t.phase, microsCount := t.microsCount, millisCount := t.millisCount, fractionCount := t.fractionCount
  tcnt := t.tcnt, tov := t.tov, configured := t.configured, suspended := t.suspended, frame := t.frame
  sofPending := t.sofPending, line := t.line, sel := t.sel, cdcTx := t.cdcTx, kbEp := t.kbEp, msEp := t.msEp
  jsEp := t.jsEp, rx := t.rx, flushRemaining := t.flushRemaining }

theorem EnvCase.writes {s t : State} {e : EnvStep} (h : EnvCase s e t) : EnvWrites s t := by
  cases h with
  | link event sel => cases event <;> rfl
  | hostPoll p => cases p <;> rfl
  | _ => rfl

theorem envStep_writes (e : EnvStep) (s : State) : EnvWrites s (envStep e s) := (envStep_case e s).writes

@[simp] theorem envStep_cfg (e : EnvStep) (s : State) : (envStep e s).cfg = s.cfg := by rw [envStep_writes e s]
@[simp] theorem envStep_prog (e : EnvStep) (s : State) : (envStep e s).prog = s.prog := by rw [envStep_writes e s]
@[simp] theorem envStep_cix (e : EnvStep) (s : State) : (envStep e s).cix = s.cix := by rw [envStep_writes e s]
@[simp] theorem envStep_ie (e : EnvStep) (s : State) : (envStep e s).ie = s.ie := by rw [envStep_writes e s]
@[simp] theorem envStep_status (e : EnvStep) (s : State) : (envStep e s).status = s.status := by rw [envStep_writes e s]
@[simp] theorem envStep_mem (e : EnvStep) (s : State) : (envStep e s).mem = s.mem := by rw [envStep_writes e s]
@[simp] theorem envStep_booted (e : EnvStep) (s : State) : (envStep e s).booted = s.booted := by rw [envStep_writes e s]
@[simp] theorem envStep_timerRunning (e : EnvStep) (s : State) : (envStep e s).timerRunning = s.timerRunning := by
  rw [envStep_writes e s]

/-! ## The phase under another agent's step -/

/-- Only an enabled TIMER_HW step touches the phase, to note its tick in an open sample. -/
theorem EnvCase.phase {s t : State} {e : EnvStep} (h : EnvCase s e t) :
    t.phase = s.phase ∨ t.phase = s.phase.noteTick ∧ e = .timerHw ∧ timerHwEnabled s = true := by
  cases h with
  | timerHw hon => exact .inr ⟨rfl, rfl, hon⟩
  | link event sel => cases event <;> exact .inl rfl
  | hostPoll p => exact .inl (setInEp_phase _ _ _)
  | _ => exact .inl rfl

theorem noteTick_eq_idle_iff (p : Phase) : p.noteTick = .idle ↔ p = .idle := by
  cases p <;> simp [Phase.noteTick]

theorem envStep_phase_idle_iff (e : EnvStep) (s : State) : (envStep e s).phase = .idle ↔ s.phase = .idle := by
  obtain h | ⟨h, -, -⟩ := (envStep_case e s).phase <;> rw [h]
  exact noteTick_eq_idle_iff _

/-- No other agent's step touches a phase that is no open sample. -/
theorem envStep_phase_of_closed (e : EnvStep) {s : State} (hclosed : s.phase.openSample = none) :
    (envStep e s).phase = s.phase := by
  obtain h | ⟨h, -, -⟩ := (envStep_case e s).phase
  · exact h
  · rw [h, noteTick_of_closed hclosed]

/-! ## The IN endpoints under another agent's step (R67, R135) -/

theorem poll_hostLog (p : InEndpoint) : ∃ new, p.poll.hostLog = p.hostLog ++ new ∧ new.length ≤ 1 := by
  unfold InEndpoint.poll
  split
  · exact ⟨[], by simp, by simp⟩
  · next packet rest _ => exact ⟨[packet], rfl, by simp⟩

/-- A poll touches the polled endpoint alone. -/
theorem inEp_poll (p e : InEp) (s : State) : (s.setInEp p (s.inEp p).poll).inEp e =
    if e = p then (s.inEp e).poll else s.inEp e := by
  split
  · next h => rw [h, inEp_setInEp]
  · next h => exact inEp_setInEp_ne p e _ s h

/-- A step that is no poll leaves the log, and no step but CONFIGURE takes a released packet away. -/
theorem EnvCase.released {s t : State} {e : EnvStep} (h : EnvCase s e t) (hpoll : ∀ p, e ≠ .hostPoll p) (ep : InEp) :
    (t.inEp ep).hostLog = (s.inEp ep).hostLog ∧
    ((∀ sel, e ≠ .link .configure sel) → ∃ new, (t.inEp ep).released = (s.inEp ep).released ++ new) := by
  cases h with
  | hostPoll p => exact absurd rfl (hpoll p)
  | link event sel =>
    cases event with
    | configure => exact ⟨by cases ep <;> rfl, fun hconf => absurd rfl (hconf sel)⟩
    | _ => exact ⟨by cases ep <;> rfl, fun _ => ⟨[], by cases ep <;> exact (List.append_nil _).symm⟩⟩
  | sofReleases sel =>
    cases ep with
    | cdcTx => exact ⟨release_hostLog _, fun _ => ⟨_, release_released _⟩⟩
    | _ => exact ⟨rfl, fun _ => ⟨[], (List.append_nil _).symm⟩⟩
  | _ => exact ⟨by cases ep <;> rfl, fun _ => ⟨[], by cases ep <;> exact (List.append_nil _).symm⟩⟩

/-! ## One SOF service of an armed deadline (R157) -/

/-- A running block with interrupts on, the deadline at `n` and the CDC endpoint at `p`. -/
def Armed (p : InEndpoint) (n : Nat) (s : State) : Prop :=
  s.status = .running ∧ s.ie = true ∧ s.flushRemaining = some n ∧ s.cdcTx = p

/-- The SOF ISR of a pending frame. -/
def sofService (sel : Endpoint) (s : State) : State := envStep (.sofIsr sel) { s with sofPending := true }

theorem sofService_of_armed {p : InEndpoint} {n : Nat} {s : State} (sel : Endpoint) (h : Armed p n s) (hlt : 1 < n) :
    Armed p (n - 1) (sofService sel s) := by
  obtain ⟨hrun, hie, harmed, hep⟩ := h
  obtain ⟨-, hcounts, -⟩ := sofIsrService { s with sofPending := true } sel hrun hie rfl
  rw [sofService, hcounts n harmed hlt]
  exact ⟨hrun, hie, rfl, hep⟩

/-- The count falls by one a service while it lasts. -/
theorem iterate_sofService {p : InEndpoint} {k : Nat} {s : State} (sel : Endpoint) (h : Armed p k s) (j : Nat)
    (hlt : j < k) : Armed p (k - j) ((sofService sel)^[j] s) := by
  induction j with
  | zero => exact h
  | succ j ih =>
    rw [Function.iterate_succ_apply']
    exact sofService_of_armed sel (ih (by omega)) (show 1 < k - j by omega)

/-! ## The obligations on the other agents -/

/-- Settles O22: `timerHwStep_eq` on both sides of the wrap; the tick handler does not read `TCNT`, so the overflow that
finds `TOV` set leaves no trace but the counter's 0. -/
theorem timerHwStep : Obligations.TimerHwStep := by
  intro s hclosed
  have hstep (htimer : s.timerRunning = true) (hrun : s.status = .running) :
      envStep .timerHw s = Machine.timerHwStep s :=
    envStep_of_enabled ((timerHwEnabled_iff s).2 ⟨htimer, hrun, windowFull_of_closed hclosed⟩)
  have hwrap (htimer : s.timerRunning = true) (hrun : s.status = .running) (hmax : s.tcnt = s.cfg.tcntMax) :
      envStep .timerHw s = { s with tcnt := 0, tov := true } := by
    rw [hstep htimer hrun, timerHwStep_eq, noteTick_of_closed hclosed, if_pos hmax, if_pos hmax]
  refine ⟨hwrap, fun htimer hrun hmax => ?_, fun hoff => ?_, fun htimer hrun htov hmax hie => ?_⟩
  · have hmax' : s.tcnt ≠ s.cfg.tcntMax := hmax
    rw [hstep htimer hrun, timerHwStep_eq, noteTick_of_closed hclosed, if_neg hmax', if_neg hmax']
  · refine envStep_of_not (timerHwEnabled_iff s) fun ⟨htimer, hrun, _⟩ => ?_
    simp [htimer, hrun] at hoff
  · rw [hwrap htimer hrun hmax, envStep_of_enabled (e := .timerIsr) (s := { s with tcnt := 0, tov := true })
        ((timerIsrEnabled_iff _).2 ⟨hrun, hie, rfl⟩),
      envStep_of_enabled (e := .timerIsr) ((timerIsrEnabled_iff s).2 ⟨hrun, hie, htov⟩)]
    rfl

/-- Settles O36: the countdown by induction on the services, then the service that finds the deadline at 1. -/
theorem flushDeadlineReleases : Obligations.FlushDeadlineReleases := by
  intro s sel k hrun hie hk harmed hcur service
  have hstart : Armed s.cdcTx k s := ⟨hrun, hie, harmed, rfl⟩
  refine ⟨fun j hlt => ?_, ?_⟩
  · obtain ⟨-, -, hcount, hep⟩ := iterate_sofService sel hstart j hlt
    exact ⟨hcount, hep⟩
  · obtain ⟨n, rfl⟩ : ∃ n, k = n + 1 := ⟨k - 1, by omega⟩
    obtain ⟨hrunN, hieN, hcount, hep⟩ := iterate_sofService sel hstart n (by omega)
    obtain ⟨-, -, hreleases, -⟩ :=
      sofIsrService { (sofService sel)^[n] s with sofPending := true } sel hrunN hieN rfl
    have hlast : service^[n + 1] s = sofService sel ((sofService sel)^[n] s) := Function.iterate_succ_apply' ..
    rw [hlast, sofService, hreleases _ hcount (by omega) (by rwa [hep]), hep]
    exact ⟨rfl, rfl, rfl⟩

/-- A poll that the bus allows moves the oldest released packet to the host's log. -/
theorem envStep_hostPoll {s : State} {e : InEp} {p : List Byte} {rest : List (List Byte)} (hbus : busUp s = true)
    (hreleased : (s.inEp e).released = p :: rest) : envStep (.hostPoll e) s =
      s.setInEp e { s.inEp e with hostLog := (s.inEp e).hostLog ++ [p], released := rest } := by
  have hon : hostPollEnabled e s = true := (hostPollEnabled_iff e s).2 ⟨hbus, by simp [hreleased]⟩
  rw [envStep_of_enabled (e := .hostPoll e) hon, envEffect, hostPollStep, poll_cons hreleased]

theorem envStep_hostPoll_of_blocked {s : State} {e : InEp} (hblocked : busUp s = false ∨ (s.inEp e).released = []) :
    envStep (.hostPoll e) s = s := by
  refine envStep_of_not (hostPollEnabled_iff e s) fun ⟨hbus, hreleased⟩ => ?_
  simp [hbus, hreleased] at hblocked

/-- Settles O51: MAIN's step by the status, the other agents by `envStep_of_stopped`, and the poll by the bus alone. -/
theorem stoppedBlock : Obligations.StoppedBlock := by
  refine fun s hstop => ⟨fun hsched => ?_, fun rest hsched => ?_, fun e hpoll => envStep_of_stopped hstop hpoll,
    fun e p rest hbus hreleased => envStep_hostPoll hbus hreleased, fun e hblocked => envStep_hostPoll_of_blocked hblocked⟩
  · rw [step_of_nil hsched, mainStep_of_stopped hstop]
  · rw [step_of_main hsched, mainScheduled,
      SystemLaws.mainEnabled_of_stopped (s := { s with sched := rest }) hstop]
    rfl

/-- Settles O52: each agent's step where its condition holds and where it fails. -/
theorem hostAndFrameSteps : Obligations.HostAndFrameSteps := by
  refine fun s => ⟨fun hatt hsusp hrun => ?_, fun hoff => ?_, fun e p rest => envStep_hostPoll,
    fun e => envStep_hostPoll_of_blocked, fun p hbus hrun hroom hfits => ?_, fun p hoff => ?_⟩
  · rw [envStep_of_enabled (e := .frameHw) ((frameHwEnabled_iff s).2 ⟨hatt, hsusp, hrun⟩)]
    rfl
  · refine envStep_of_not (frameHwEnabled_iff s) fun ⟨hatt, hsusp, hrun⟩ => ?_
    simp [hatt, hsusp, hrun] at hoff
  · rw [envStep_of_enabled (e := .hostDeliver p) ((hostDeliverEnabled_iff p s).2 ⟨hbus, hrun, hroom, hfits⟩)]
    rfl
  · refine envStep_of_not (hostDeliverEnabled_iff p s) fun ⟨hbus, _, hroom, hfits⟩ => ?_
    rw [hbus] at hoff
    simp at hoff
    omega

/-- Settles O54: every ISR's condition asks for a running block, `IE` and its own source. -/
theorem isrOnlyWhenEnabled : Obligations.IsrOnlyWhenEnabled := by
  refine fun s sel ev l => ⟨fun hoff => ?_, fun htov => ?_, fun hpending => ?_, fun hatt => ?_⟩
  · have hnot : ¬ (s.status = .running ∧ s.ie = true) := fun ⟨hrun, hie⟩ => by simp [hrun, hie] at hoff
    exact ⟨envStep_of_not (timerIsrEnabled_iff s) fun ⟨hrun, hie, _⟩ => hnot ⟨hrun, hie⟩,
      envStep_of_not (sofIsrEnabled_iff s) fun ⟨hrun, hie, _⟩ => hnot ⟨hrun, hie⟩,
      envStep_of_not (linkIsrEnabled_iff ev s) fun ⟨hrun, hie, _⟩ => hnot ⟨hrun, hie⟩,
      envStep_of_not (lineIsrEnabled_iff s) fun ⟨hrun, hie, _⟩ => hnot ⟨hrun, hie⟩⟩
  · exact envStep_of_not (timerIsrEnabled_iff s) fun ⟨_, _, h⟩ => by simp [htov] at h
  · exact envStep_of_not (sofIsrEnabled_iff s) fun ⟨_, _, h⟩ => by simp [hpending] at h
  · exact ⟨envStep_of_not (linkIsrEnabled_iff ev s) fun ⟨_, _, h, _⟩ => by simp [hatt] at h,
      envStep_of_not (lineIsrEnabled_iff s) fun ⟨_, _, h, _⟩ => by simp [hatt] at h⟩

/-- Settles O55: `envStep_writes` lists what another agent may write, and none of these fields is in it. -/
theorem mainOwnsItsState : Obligations.MainOwnsItsState := by
  intro e s t
  have hwrites : EnvWrites s t := envStep_writes e s
  refine ⟨?_, ?_, ?_, ?_, ?_, ?_, ?_, ?_, ?_, ?_, ?_, ?_, ?_, ?_, (envStep_phase_idle_iff e s).symm⟩ <;> rw [hwrites]

end Sys2Proof.Machine.AgentLaws
end

section
/-! SUPPORT. The sending commands of 43_hid.md as one: what a command writes to its report before each send, its step at
its start, at its own yields and at its waits; and the obligations on sends that follow. -/

namespace Sys2Proof.Machine.HidLaws

/-! ## One command, send by send -/

/-- What a command writes before its send number `stage` (R188, R189, R193 to R196). -/
def hidPrepare : Instr → Nat → State → State
  | .kbReleaseAll, 1, s => { s with kb := Vector.replicate 8 0 }
  | .kbType mod _, 1, s => setKb 0 mod s
  | .kbType _ key, 2, s => setKb 2 key s
  | .kbType _ _, 3, s => setKb 2 0 s
  | .kbType _ _, 4, s => setKb 0 0 s
  | .msPress b, 1, s => setButtons (s.msButtons ||| b) s
  | .msRelease b, 1, s => setButtons (s.msButtons &&& ~~~b) s
  | .msClick b, 1, s => setButtons b s
  | .msClick _, 2, s => setButtons 0 s
  | .msSetButtons l r m b f, 1, s => setButtons (buttonsByte l r m b f) s
  | _, _, s => s

/-- Whether a command finds nothing to report when it starts (R188, R193, R194). -/
def hidSilent : Instr → State → Bool
  | .kbReleaseAll, s => !kbPressed s.kb
  | .msPress b, s => s.msButtons ||| b == s.msButtons
  | .msRelease b, s => s.msButtons &&& ~~~b == s.msButtons
  | _, _ => false

/-- A send that begins writes a report and no other field. -/
theorem hidPrepare_writes (i : Instr) (stage : Nat) (s : State) : hidPrepare i stage s =
    { s with kb := (hidPrepare i stage s).kb, msButtons := (hidPrepare i stage s).msButtons } := by
  unfold hidPrepare
  split <;> rfl

section Commands

variable {i : Instr} {e : InEp} {s : State}

/-- From its start: nothing to report, or the first send. -/
theorem exec_hid_start (hchan : hidChannel i = some e) (hidle : s.phase = .idle) :
    exec i s = if hidSilent i s = true then .next (finishVoid s) else
      conclude s (hidSend e (hidReport i e (hidPrepare i 1 s)) 1 (afterSend i 1) (hidPrepare i 1 s)) := by
  cases i <;> cases hchan
  case kbReleaseAll =>
    show execKbReleaseAll s = _
    unfold execKbReleaseAll
    split
    · cases hpressed : kbPressed s.kb <;> simp only [hidSilent, hpressed] <;> rfl
    · next hbusy => simp [hidle] at hbusy
    · next hbusy _ => exact absurd hidle hbusy
  case msPress b | msRelease b =>
    simp only [exec, execMsPress, execMsRelease, changeButtons, hidle, hidSilent, beq_iff_eq, ne_eq, ite_not]
    rfl
  all_goals
    simp only [exec, execKbSendNow, execKbType, execMsMove, execMsClick, execMsSetButtons, execJsSendNow, hidle]
    rfl

/-- From a yield of its own: the next send. -/
theorem exec_hid_yield {stage : Nat} (hchan : hidChannel i = some e) (hyield : s.phase = .hidYield stage)
    (hlo : 1 ≤ stage) (hhi : stage < sendCount i) :
    exec i s = conclude s (hidSend e (hidReport i e (hidPrepare i (stage + 1) s)) (stage + 1)
      (afterSend i (stage + 1)) (hidPrepare i (stage + 1) s)) := by
  cases i <;> cases hchan
  case kbType mod key =>
    have hcount : stage < 4 := hhi
    interval_cases stage <;>
      · simp only [exec, execKbType, hyield]
        rfl
  case msClick b =>
    have hcount : stage < 2 := hhi
    interval_cases stage
    simp only [exec, execMsClick, hyield]
    rfl
  all_goals exact absurd (Nat.lt_of_le_of_lt hlo hhi) (Nat.lt_irrefl 1)

/-- From the yield of a wait: the send goes on. -/
theorem exec_hid_wait {stage start : Nat} (hchan : hidChannel i = some e) (hwait : s.phase = .hidWait stage start)
    (hlo : 1 ≤ stage) (hhi : stage ≤ sendCount i) :
    exec i s = conclude s (hidResume e (hidReport i e s) stage start (afterSend i stage) s) := by
  cases i <;> cases hchan
  case kbType mod key =>
    have hcount : stage ≤ 4 := hhi
    interval_cases stage <;>
      · simp only [exec, execKbType, hwait]
        rfl
  case msClick b =>
    have hcount : stage ≤ 2 := hhi
    interval_cases stage <;>
      · simp only [exec, execMsClick, hwait]
        rfl
  all_goals
    obtain rfl : stage = 1 := Nat.le_antisymm hhi hlo
    simp only [exec, execKbSendNow, execKbReleaseAll, execMsMove, execMsPress, execMsRelease, changeButtons,
      execMsSetButtons, execJsSendNow, hwait]
    rfl

theorem hidReport_ne_nil {u : State} (hchan : hidChannel i = some e) : hidReport i e u ≠ [] := by
  cases i <;> cases hchan <;> exact List.ne_nil_of_length_pos (by simp [hidReport, kbReport, jsReport, moveReport,
    msReport, msButtonReport])

/-! ## The three outcomes of a send (R200) -/

theorem conclude_hidSend (e : InEp) (report : List Byte) (stage : Nat) (after : State → State) (s u : State) :
    HidOutcome e report stage after u (conclude s (hidSend e report stage after u)) := by
  obtain ⟨hskips, hwaits, hsends⟩ := hidSend_outcome e report stage after u
  refine ⟨fun hlink => ?_, fun hlink hfull => ?_, fun hlink hfree hcur hfits hne => ?_⟩
  · rw [hskips hlink, conclude_ok]
  · rw [hwaits hlink hfull, conclude_ok]
  · rw [hsends hlink hfree hcur hfits hne, conclude_ok]

/-- The first send of a command that has something to report. -/
theorem exec_hid_start_outcome (hchan : hidChannel i = some e) (hidle : s.phase = .idle)
    (hreports : hidSilent i s = false) : HidOutcome e (hidReport i e (hidPrepare i 1 s)) 1 (afterSend i 1)
      (hidPrepare i 1 s) (exec i s) := by
  rw [exec_hid_start hchan hidle, hreports]
  exact conclude_hidSend ..

/-- A command that has nothing to report only completes. -/
theorem exec_hid_start_silent (hchan : hidChannel i = some e) (hidle : s.phase = .idle)
    (hsilent : hidSilent i s = true) : exec i s = .next { s with res := 0, cix := s.cix + 1 } := by
  rw [exec_hid_start hchan hidle, hsilent, if_pos rfl, finishVoid, ClockLaws.complete_of_idle hidle]

/-- The sends after the first. -/
theorem exec_hid_yield_outcome {stage : Nat} (hchan : hidChannel i = some e) (hyield : s.phase = .hidYield stage)
    (hlo : 1 ≤ stage) (hhi : stage < sendCount i) :
    HidOutcome e (hidReport i e (hidPrepare i (stage + 1) s)) (stage + 1) (afterSend i (stage + 1))
      (hidPrepare i (stage + 1) s) (exec i s) := by
  rw [exec_hid_yield hchan hyield hlo hhi]
  exact conclude_hidSend ..

/-- Every HID command at its wait: a lost link or a reached deadline drops the report. -/
theorem exec_hid_wait_dropped {stage start : Nat} (hchan : hidChannel i = some e) (hwait : s.phase = .hidWait stage start)
    (hlo : 1 ≤ stage) (hhi : stage ≤ sendCount i)
    (hends : linkUsable s = false ∨ s.cfg.hidTimeout ≤ subMod s.cfg.frameBits s.frame start) :
    exec i s = .next (afterSend i stage s) := by
  rw [exec_hid_wait hchan hwait hlo hhi, hidResume_eq, if_pos hends, conclude_ok]

end Commands

/-! ## Operand forms -/

/-- The clamp of MS_MOVE by the value of the delta. -/
theorem clampDelta_eq (v : Byte) : clampDelta v = if v.toInt = -128 then BitVec.ofInt 8 (-127) else v := by
  have hmin : v.toInt = -128 ↔ v = 0x80#8 := by
    rw [← BitVec.toInt_inj]
    rfl
  simp only [clampDelta, hmin]
  rfl

theorem buttonsByte_eq (l r m b f : Bool) : buttonsByte l r m b f =
    BitVec.ofNat 8 (l.toNat + 2 * r.toNat + 4 * m.toNat + 8 * b.toNat + 16 * f.toNat) := by
  revert l r m b f
  decide

theorem kbPressed_iff (kb : Vector Byte 8) : kbPressed kb = true ↔
    kb[0] ≠ 0 ∨ kb[2] ≠ 0 ∨ kb[3] ≠ 0 ∨ kb[4] ≠ 0 ∨ kb[5] ≠ 0 ∨ kb[6] ≠ 0 ∨ kb[7] ≠ 0 := by
  simp [kbPressed, or_assoc]

/-! ## The obligations on sends -/

/-- Settles O38: the first and only send of each command. -/
theorem singleReportSends : Obligations.SingleReportSends := by
  intro s hidle done
  refine ⟨exec_hid_start_outcome (i := .kbSendNow) rfl hidle rfl, exec_hid_start_outcome (i := .jsSendNow) rfl hidle rfl,
    fun x y w h => ?_,
    fun l r m b f => ?_⟩
  · intro clamp
    have hclamp : clamp = clampDelta := funext fun v => (clampDelta_eq v).symm
    rw [hclamp]
    exact exec_hid_start_outcome (i := .msMove x y w h) rfl hidle rfl
  · intro mask
    have hmask : mask = buttonsByte l r m b f := (buttonsByte_eq l r m b f).symm
    rw [hmask]
    exact exec_hid_start_outcome (i := .msSetButtons l r m b f) rfl hidle rfl

/-- Settles O39: the command is silent exactly when nothing is pressed. -/
theorem releaseAllSends : Obligations.ReleaseAllSends := by
  refine fun s hidle => ⟨fun hpressed => exec_hid_start_outcome (i := .kbReleaseAll) rfl hidle ?_,
    fun h0 h2 h3 h4 h5 h6 h7 => exec_hid_start_silent (i := .kbReleaseAll) rfl hidle ?_⟩
  · simp [hidSilent, (kbPressed_iff s.kb).2 hpressed]
  · simp [hidSilent, kbPressed, h0, h2, h3, h4, h5, h6, h7]

/-- Settles O40: the first send from idle and the three after the yields. -/
theorem typeSequence : Obligations.TypeSequence := fun _ mod key =>
  ⟨fun hidle => exec_hid_start_outcome (i := .kbType mod key) rfl hidle rfl,
    fun hyield => exec_hid_yield_outcome (i := .kbType mod key) rfl hyield (by decide) (by decide : 1 < 4),
    fun hyield => exec_hid_yield_outcome (i := .kbType mod key) rfl hyield (by decide) (by decide : 2 < 4),
    fun hyield => exec_hid_yield_outcome (i := .kbType mod key) rfl hyield (by decide) (by decide : 3 < 4)⟩

/-- Settles O41: MS_PRESS and MS_RELEASE are silent exactly when the mask stays; MS_CLICK always sends twice. -/
theorem mouseButtons : Obligations.MouseButtons := by
  refine fun s b => ⟨fun hidle => ⟨fun hnew => ?_, fun hsame => ?_, fun hnew => ?_, fun hsame => ?_, ?_⟩, fun hyield => ?_⟩
  · exact exec_hid_start_outcome (i := .msPress b) rfl hidle (beq_eq_false_iff_ne.2 hnew)
  · exact exec_hid_start_silent (i := .msPress b) rfl hidle (beq_iff_eq.2 hsame)
  · exact exec_hid_start_outcome (i := .msRelease b) rfl hidle (beq_eq_false_iff_ne.2 hnew)
  · exact exec_hid_start_silent (i := .msRelease b) rfl hidle (beq_iff_eq.2 hsame)
  · exact exec_hid_start_outcome (i := .msClick b) rfl hidle rfl
  · exact exec_hid_yield_outcome (i := .msClick b) rfl hyield (by decide) (by decide : 1 < 2)

/-- Settles O42: the outcomes of the resumed send; waiting on leaves the phase as it is. -/
theorem hidWaitOutcomes : Obligations.HidWaitOutcomes := by
  intro i e s stage start hchan hwait hlo hhi
  obtain ⟨-, -, hwaits, hsends⟩ := hidResume_outcome e (hidReport i e s) stage start (afterSend i stage) s
  refine ⟨fun hlink => exec_hid_wait_dropped hchan hwait hlo hhi (.inl hlink),
    fun _ hdeadline => exec_hid_wait_dropped hchan hwait hlo hhi (.inr hdeadline),
    fun hlink hearly hfull => ?_, fun hlink hearly hfree hcur hfits => ?_⟩
  · rw [exec_hid_wait hchan hwait hlo hhi, hwaits hlink hearly hfull, conclude_ok, hwait]
  · rw [exec_hid_wait hchan hwait hlo hhi, hsends hlink hearly hfree hcur hfits (hidReport_ne_nil hchan), conclude_ok]

end Sys2Proof.Machine.HidLaws
end

section
/-! SUPPORT. The MICROS sample and DELAY (40_clock.md R103, R104, R108): their steps, what may fall in the window of a
sample, and the value of a sample of a clock that has lost no tick. -/

namespace Sys2Proof.Machine.SampleLaws

open AgentLaws (EnvCase envStep_case envStep_of_not timerHwEnabled_iff isrOnlyWhenEnabled)
open ClockLaws (envStep_of_enabled timerIsrEnabled_iff)

/-! ## The steps of MICROS and DELAY -/

section Steps

variable {s : State} {w : Sample} {total ms start : Word}

theorem exec_micros_opens (hidle : s.phase = .idle) :
    exec .micros s = .next { s with ie := false, phase := .microsWindow ⟨s.ie, s.tcnt, false⟩ } := by
  show execMicros s = _
  simp only [execMicros, hidle]
  rfl

theorem exec_micros_closes (hopen : s.phase = .microsWindow w) :
    exec .micros s = .next (complete (sampleNow w s) (csExit w.saved s)) := by
  show execMicros s = _
  simp only [execMicros, hopen]

theorem exec_delay_opens (hidle : s.phase = .idle) :
    exec (.delay total) s = .next { s with ie := false, phase := .delayFirst ⟨s.ie, s.tcnt, false⟩ total } := by
  show execDelay total s = _
  simp only [execDelay, hidle]
  rfl

theorem exec_delay_starts (hopen : s.phase = .delayFirst w ms) :
    exec (.delay total) s = .next (delayHead ms (sampleNow w s) (csExit w.saved s)) := by
  show execDelay total s = _
  simp only [execDelay, hopen]

theorem exec_delay_reopens (hyield : s.phase = .delayYield ms start) :
    exec (.delay total) s = .next { s with ie := false, phase := .delayWindow ⟨s.ie, s.tcnt, false⟩ ms start } := by
  show execDelay total s = _
  simp only [execDelay, hyield]
  rfl

theorem exec_delay_counts (hopen : s.phase = .delayWindow w ms start) :
    exec (.delay total) s = .next (delayCount ms start (sampleNow w s) (csExit w.saved s)) := by
  show execDelay total s = _
  simp only [execDelay, hopen]

end Steps

/-! ## The window of a sample (R103) -/

/-- The three windows hold their sample, and a tick is noted in it. -/
theorem window_openSample {window : Sample → Phase}
    (hwindow : window = .microsWindow ∨ (∃ ms, window = fun w => .delayFirst w ms) ∨
      (∃ ms start, window = fun w => .delayWindow w ms start)) (w : Sample) :
    (window w).openSample = some w ∧ (window w).noteTick = window { w with ticked := true } := by
  obtain rfl | ⟨ms, rfl⟩ | ⟨ms, start, rfl⟩ := hwindow <;> exact ⟨rfl, rfl⟩

/-- MICROS between its two steps since `s`: interrupts are off, no tick has been counted, and `TOV` is as it was unless
the one TIMER_HW step admitted has wrapped a full counter. -/
structure InWindow (s u : State) : Prop where
  ie : u.ie = false
  cfg : u.cfg = s.cfg
  cix : u.cix = s.cix
  micros : u.microsCount = s.microsCount
  sample : ∃ ticked, u.phase = .microsWindow ⟨s.ie, s.tcnt, ticked⟩ ∧ (ticked = false → u.tcnt = s.tcnt)
  tov : u.tov = s.tov ∨ s.tcnt = s.cfg.tcntMax

theorem InWindow.envStep {s u : State} (h : InWindow s u) (e : EnvStep) : InWindow s (envStep e u) := by
  obtain ⟨hie, hcfg, hcix, hmicros, hsample, htov⟩ := h
  have hcase := envStep_case e u
  generalize Machine.envStep e u = v at hcase
  cases hcase with
  | timerHw hon =>
    obtain ⟨ticked, hphase, htcnt⟩ := hsample
    obtain ⟨-, -, hfull⟩ := (timerHwEnabled_iff u).1 hon
    obtain rfl : ticked = false := by simpa [hphase, Phase.windowFull] using hfull
    refine ⟨hie, hcfg, hcix, hmicros, ⟨true, by simp [hphase, Phase.noteTick], nofun⟩, ?_⟩
    by_cases hmax : u.tcnt = u.cfg.tcntMax
    · rw [htcnt rfl, hcfg] at hmax
      exact .inr hmax
    · simpa only [if_neg hmax] using htov
  | timerIsr hon =>
    obtain ⟨-, hon, -⟩ := (timerIsrEnabled_iff u).1 hon
    exact absurd (hie.symm.trans hon) (by decide)
  | link event sel => cases event <;> exact ⟨hie, hcfg, hcix, hmicros, hsample, htov⟩
  | hostPoll p => cases p <;> exact ⟨hie, hcfg, hcix, hmicros, hsample, htov⟩
  | _ => exact ⟨hie, hcfg, hcix, hmicros, hsample, htov⟩

theorem InWindow.envSteps {s u : State} (h : InWindow s u) (steps : List EnvStep) : InWindow s (envSteps steps u) := by
  induction steps generalizing u with
  | nil => exact h
  | cons e steps ih => exact ih (h.envStep e)

/-! ## The value of a sample (R108) -/

/-- `n` counts in whole ticks and the rest of one. -/
theorem counts_eq {c : Config} (hwf : c.WF) (n : Nat) : n * c.usPerCount =
    n / 2 ^ c.tcntBits * c.tickUs + n % 2 ^ c.tcntBits * c.usPerCount := by
  have htick : 2 ^ c.tcntBits * c.usPerCount = c.tickUs := Nat.mul_div_cancel' (Nat.dvd_of_mod_eq_zero hwf.1)
  calc n * c.usPerCount
      = (n / 2 ^ c.tcntBits * 2 ^ c.tcntBits + n % 2 ^ c.tcntBits) * c.usPerCount := by rw [Nat.div_add_mod']
    _ = _ := by rw [Nat.add_mul, Nat.mul_assoc, htick]

/-- With no tick lost, a sample of the counter is the elapsed time, whether or not a full counter wraps before `TOV` is
read: there the bound has `TOV` clear at the sample, and the correction is suppressed. -/
theorem sampleValue_of_tracks {s : State} {n : Nat} {tov : Bool} (hwf : s.cfg.WF) (htracks : ClockTracks n s)
    (hbound : TickServiceBound s) (htov : tov = s.tov ∨ s.tcnt = s.cfg.tcntMax) :
    sampleValue s.cfg s.microsCount s.tcnt tov = BitVec.ofNat 32 (n * s.cfg.usPerCount) := by
  obtain ⟨htcnt, hmicros⟩ := htracks
  have hcorr : sampleCorrection s.cfg s.tcnt tov = if s.tov = true then BitVec.ofNat 32 s.cfg.tickUs else 0 := by
    by_cases hmax : s.tcnt = s.cfg.tcntMax
    · have hclear : ¬ s.tov = true := fun hset => hbound ⟨hset, hmax⟩
      simp [sampleCorrection, hmax, hclear]
    · obtain rfl := htov.resolve_right hmax
      simp [sampleCorrection, hmax]
  rw [sampleValue, hcorr, hmicros, htcnt, counts_eq hwf n, BitVec.ofNat_add]

/-! ## The obligations on samples -/

/-- Settles O15: the two steps; and in a window, with `IE = 0`, no ISR is enabled and TIMER_HW is until its tick. -/
theorem microsSample : Obligations.MicrosSample := by
  refine ⟨fun s => exec_micros_opens, fun s w => exec_micros_closes, fun s w window hwindow hphase hie => ?_⟩
  obtain ⟨hopen, hnote⟩ := window_openSample hwindow w
  rw [← hphase] at hopen hnote
  have hoff (sel ev l) := (isrOnlyWhenEnabled s sel ev l).1 (.inl hie)
  have hkeeps {e : EnvStep} (hne : e ≠ .timerHw) : (envStep e s).phase = s.phase :=
    (envStep_case e s).phase.resolve_right fun ⟨_, heq, _⟩ => hne heq
  refine ⟨(hoff .cdcTx .resume s.line).1, fun sel => (hoff sel .resume s.line).2.1,
    fun ev sel => (hoff sel ev s.line).2.2.1, fun l sel => (hoff sel .resume l).2.2.2, fun hno => ?_,
    fun hticked htimer hrun => ?_, hkeeps nofun, fun e => hkeeps nofun, fun p => hkeeps nofun⟩
  · refine envStep_of_not (timerHwEnabled_iff s) fun ⟨htimer, hrun, hfull⟩ => ?_
    rw [windowFull_of_open hopen] at hfull
    simp [hfull, htimer, hrun] at hno
  · have hfull : s.phase.windowFull = false := (windowFull_of_open hopen).trans hticked
    rw [envStep_of_enabled (e := .timerHw) ((timerHwEnabled_iff s).2 ⟨htimer, hrun, hfull⟩), envEffect, timerHwStep_eq,
      hnote]
    rfl

/-- Settles O16: the window's invariant through the other agents' steps, then the value of the sample. -/
theorem microsExact : Obligations.MicrosExact := by
  intro s n steps hwf htracks hbound hidle
  let t : State := { s with ie := false, phase := .microsWindow ⟨s.ie, s.tcnt, false⟩ }
  have hstart : InWindow s t := ⟨rfl, rfl, rfl, rfl, ⟨false, rfl, fun _ => rfl⟩, .inl rfl⟩
  obtain ⟨-, hcfg, hcix, hmicros, ⟨ticked, hphase, -⟩, htov⟩ := hstart.envSteps steps
  refine ⟨t, _, exec_micros_opens hidle, exec_micros_closes hphase, ?_, rfl, congrArg (· + 1) hcix, rfl⟩
  rw [complete_res, sampleNow, hcfg, hmicros]
  exact sampleValue_of_tracks hwf htracks hbound htov

/-- Settles O18: the steps of DELAY; the difference is compared as a 32-bit number. -/
theorem delayLoop : Obligations.DelayLoop := by
  intro s total
  refine ⟨exec_delay_opens, fun w ms => exec_delay_starts, fun ms start => exec_delay_reopens,
    fun w ms start hopen hfull => ?_, fun w ms start hopen hshort => ?_⟩
  · have hle : 1000#32 ≤ sampleNow w s - start := hfull
    rw [exec_delay_counts hopen, delayCount, if_pos hle]
    rfl
  · have hlt : ¬ 1000#32 ≤ sampleNow w s - start := Nat.not_le.2 hshort
    rw [exec_delay_counts hopen, delayCount, if_neg hlt]
    rfl

end Sys2Proof.Machine.SampleLaws
end

section
/-! SUPPORT. SER_WRITE (42_cdc_serial.md R155, R158): its start and its wait as equations, one inversion of what a step of
it can do, that its loop keeps the invariants of its endpoint, and the obligations that follow. -/

namespace Sys2Proof.Machine.SerialLaws

open ClockLaws (complete_of_idle)

/-! ## SER_WRITE from its first line -/

section Start

variable {s : State} {buf size : Word}

/-- An empty buffer is never a bad one, and neither is one within the address space (R61). -/
theorem bufferBad_eq_false {c : Config} {b n : Nat} (h : n = 0 ∨ b + n ≤ 2 ^ c.addrBits) : bufferBad c b n = false := by
  obtain rfl | hle := h
  · simp [bufferBad]
  · exact bufferBad_of_le hle

theorem exec_serWrite_badBuffer (hidle : s.phase = .idle) (hpos : 0 < size.toNat)
    (hpast : 2 ^ s.cfg.addrBits < bufAddress s.cfg buf + size.toNat) :
    exec (.serWrite buf size) s = .next (raiseFault .badBuffer s) := by
  have hbad : bufferBad s.cfg (bufAddress s.cfg buf) size.toNat = true := by simp [bufferBad, hpos, hpast]
  rw [exec_serWrite_of_idle hidle, writeStart_eq, if_pos hbad, conclude_raise]

variable (hfits : size.toNat = 0 ∨ bufAddress s.cfg buf + size.toNat ≤ 2 ^ s.cfg.addrBits)

include hfits

theorem exec_serWrite_unlinked (hidle : s.phase = .idle) (hlink : linkUsable s = false) :
    exec (.serWrite buf size) s = .next (complete 0 (markWriteError s)) := by
  rw [exec_serWrite_of_idle hidle, writeStart_eq, bufferBad_eq_false hfits, hlink]
  rfl

theorem exec_serWrite_sticky (hidle : s.phase = .idle) (hlink : linkUsable s = true) (hsticky : s.txTimedOutPrev = true)
    (hfull : writable .cdcTx s = false) :
    exec (.serWrite buf size) s = .next (complete 0 (markWriteError (select .cdcTx s))) := by
  rw [exec_serWrite_of_idle hidle, writeStart_eq, bufferBad_eq_false hfits, hlink, hsticky, hfull]
  rfl

/-- Without a sticky timeout, or with one and a writable endpoint, the loop begins with the sticky flag clear. -/
theorem exec_serWrite_loops (hidle : s.phase = .idle) (hlink : linkUsable s = true)
    (hsticky : s.txTimedOutPrev = false ∨ writable .cdcTx s = true) :
    exec (.serWrite buf size) s = conclude s (writeLoop size.toNat s.ie (bufAddress s.cfg buf) size.toNat 0
      (clearTimedOut (enterSelect .cdcTx s))) := by
  rw [exec_serWrite_of_idle hidle, writeStart_eq, bufferBad_eq_false hfits, hlink]
  cases hprev : s.txTimedOutPrev with
  | false =>
    have hclear : clearTimedOut (enterSelect .cdcTx s) = enterSelect .cdcTx s := by
      simp [clearTimedOut, enterSelect, select, csEnter, ← hprev]
    rw [hclear]
    rfl
  | true =>
    rw [hsticky.resolve_left (by simp [hprev])]
    rfl

end Start

/-! ## SER_WRITE from the yield of its wait -/

section Wait

variable {s : State} {b z : Word} {buf size count start : Nat} (hwait : s.phase = .serWait buf size count start)

include hwait

theorem exec_serWrite_of_wait : exec (.serWrite b z) s = conclude s (writeResume buf size count start s) := by
  show execSerWrite b z s = _
  simp only [execSerWrite, hwait]

theorem exec_serWrite_lost (hlink : linkUsable s = false) :
    exec (.serWrite b z) s = .next (complete (natResult count) (markWriteError s)) := by
  rw [exec_serWrite_of_wait hwait, writeResume, waitResume_eq, if_pos hlink]
  rfl

variable (hlink : linkUsable s = true) (hearly : subMod s.cfg.frameBits s.frame start < s.cfg.txTimeout)

include hlink hearly

/-- Unwritable still: nothing but `SEL` is touched, and the wait keeps its start frame. -/
theorem exec_serWrite_waits (hfull : writable .cdcTx s = false) :
    exec (.serWrite b z) s = .next { s with sel := .cdcTx } := by
  rw [exec_serWrite_of_wait hwait, writeResume, waitResume_eq, hlink, if_neg (by decide), if_neg (Nat.not_le.2 hearly),
    hfull]
  simp [writeAfterWait, select, hwait, InEp.toEndpoint]

/-- Writable again: the pass the wait held up, then the loop. -/
theorem exec_serWrite_resumes (hfree : writable .cdcTx s = true) : exec (.serWrite b z) s =
    conclude s (writeAfterWait (writeLoop size) buf size count start (.ready s.ie (enterSelect .cdcTx s))) := by
  rw [exec_serWrite_of_wait hwait, writeResume, waitResume_eq, hlink, if_neg (by decide), if_neg (Nat.not_le.2 hearly),
    hfree]
  rfl

/-- With bytes left that is the loop itself. -/
theorem exec_serWrite_goesOn (hpos : 0 < size) (hfree : writable .cdcTx s = true) : exec (.serWrite b z) s =
    conclude s (writeLoop (size + 1) s.ie buf size count (enterSelect .cdcTx s)) := by
  have hfree' : writable .cdcTx (enterSelect .cdcTx s) = true := (writable_enterSelect ..).trans hfree
  rw [exec_serWrite_resumes hwait hlink hearly hfree, writeAfterWait_ready _ _ _ _ _ _ rfl hpos hfree']

end Wait

/-! ## What the loop keeps of its endpoint (R48) -/

/-- R48 (b), (c), (e), (f) and (h) of the CDC transmit endpoint. -/
def TxOk (s : State) : Prop :=
  EndpointOk s.cfg .cdcTx s.cdcTx ∧ s.cdcTx.cur.length < s.cfg.size.cdcTx ∧
    ∀ k, s.flushRemaining = some k → 1 ≤ k ∧ k ≤ s.cfg.txFlush ∧ s.cdcTx.cur ≠ []

theorem txOk_afterPartial {s : State} {buf size : Nat} (hflush : 1 ≤ s.cfg.txFlush) (h : TxOk s)
    (hfree : writable .cdcTx s = true) (hpos : 0 < size) (hlt : s.cdcTx.cur.length + size < s.cfg.size.cdcTx) :
    TxOk (afterPartial buf size s) := by
  obtain ⟨hep, -, -⟩ := h
  have hlen : (afterPartial buf size s).cdcTx.cur.length = s.cdcTx.cur.length + size := by simp [afterPartial]
  refine ⟨{ hep with
    curFits := (Nat.le_of_eq hlen).trans (Nat.le_of_lt hlt), roomWhileFilling := fun _ => ((writable_cdcTx s).1 hfree).1 },
    hlen ▸ hlt, fun k hk => ?_⟩
  obtain rfl : s.cfg.txFlush = k := Option.some.inj hk
  exact ⟨hflush, Nat.le_refl _, List.ne_nil_of_length_pos (by omega)⟩

theorem txOk_afterFull {s : State} {buf : Nat} (h : TxOk s) (hfree : writable .cdcTx s = true) :
    TxOk (afterFull buf s) := by
  obtain ⟨hep, hroom, -⟩ := h
  have hbank : s.cdcTx.released.length < s.cfg.banks.cdcTx := ((writable_cdcTx s).1 hfree).1
  have hlen : (s.cdcTx.cur ++ s.mem.bytes buf (s.cfg.size.cdcTx - s.cdcTx.cur.length)).length = s.cfg.size.cdcTx := by
    rw [List.length_append, Memory.bytes_length]
    omega
  refine ⟨{ hep with
    curFits := Nat.zero_le _, releasedFits := ?_, roomWhileFilling := fun hne => absurd rfl hne,
    releasedPackets := fun p hp => ?_ }, Nat.zero_lt_of_lt hroom, nofun⟩
  · exact (List.length_append ..).trans_le hbank
  · obtain hp | hp := List.mem_append.1 hp
    · exact hep.releasedPackets p hp
    · rw [List.mem_singleton.1 hp]
      exact ⟨(Nat.zero_lt_of_lt hroom).trans_eq hlen.symm, Nat.le_of_eq hlen⟩

theorem writeLoop_txOk (fuel : Nat) (saved : Bool) (buf size count : Nat) {s t : State} (hsel : s.sel = .cdcTx)
    (hflush : 1 ≤ s.cfg.txFlush) (h : TxOk s) (hloop : writeLoop fuel saved buf size count s = .ok t) : TxOk t := by
  induction fuel generalizing buf size count s with
  | zero =>
    obtain rfl := Except.ok.inj hloop
    exact h
  | succ fuel ih =>
    obtain rfl | hpos := Nat.eq_zero_or_pos size
    · rw [writeLoop_done] at hloop
      obtain rfl := Except.ok.inj hloop
      exact h
    cases hfree : writable .cdcTx s with
    | false =>
      rw [writeLoop_blocked fuel saved buf size count hsel hpos hfree] at hloop
      obtain rfl := Except.ok.inj hloop
      exact h
    | true =>
      rw [writeLoop_ready fuel saved buf size count hsel hpos hfree] at hloop
      split at hloop
      · next hlt =>
        exact ih (s := afterPartial buf size s) _ _ _ hsel hflush (txOk_afterPartial hflush h hfree hpos hlt) hloop
      · exact ih (s := afterFull buf s) _ _ _ hsel hflush (txOk_afterFull h hfree) hloop

/-! ## What a step of SER_WRITE can do -/

/-- Where the bytes a step writes come from: the operands at the start, the locals of its wait later. -/
def WriteFrom (b z : Word) (s : State) (buf size count : Nat) : Prop :=
  (s.phase = .idle ∧ buf = bufAddress s.cfg b ∧ size = z.toNat ∧ count = 0 ∧
    (size = 0 ∨ buf + size ≤ 2 ^ s.cfg.addrBits)) ∨
  ∃ start, s.phase = .serWait buf size count start

/-- A step of SER_WRITE from one of its own phases. -/
inductive SerCase (b z : Word) (s : State) : State → Prop
  | badBuffer (hidle : s.phase = .idle) (hpos : 0 < z.toNat)
      (hpast : 2 ^ s.cfg.addrBits < bufAddress s.cfg b + z.toNat) : SerCase b z s (raiseFault .badBuffer s)
  | gaveUp (hclosed : s.phase.openSample = none) (v : Word) (sel : Endpoint) (sticky : Bool) :
      SerCase b z s (complete v { s with sel := sel, txTimedOutPrev := sticky, writeError := true })
  | waits {buf size count start : Nat} (hwait : s.phase = .serWait buf size count start) :
      SerCase b z s { s with sel := .cdcTx }
  | wrote {buf size count : Nat} {u t : State} (hfrom : WriteFrom b z s buf size count)
      (hu : u = { s with sel := .cdcTx, ie := false, txTimedOutPrev := u.txTimedOutPrev })
      (hwrote : Wrote u t s.ie buf size count)
      (htx : s.phase = .idle ∨ 0 < size → 1 ≤ s.cfg.txFlush → TxOk s → TxOk t) : SerCase b z s t

theorem serCase_of_loop {b z : Word} {s u : State} {fuel buf size count : Nat} (hfrom : WriteFrom b z s buf size count)
    (hu : u = { s with sel := .cdcTx, ie := false, txTimedOutPrev := u.txTimedOutPrev }) (hfuel : size ≤ fuel) :
    ∃ t, conclude s (writeLoop fuel s.ie buf size count u) = .next t ∧ SerCase b z s t := by
  have hsel : u.sel = .cdcTx := by rw [hu]
  obtain ⟨t, hloop, hwrote⟩ := writeLoop_wrote fuel s.ie buf size count u hsel hfuel
  refine ⟨t, by rw [hloop, conclude_ok], .wrote hfrom hu hwrote fun _ hflush htx => ?_⟩
  exact writeLoop_txOk fuel s.ie buf size count hsel (by rw [hu]; exact hflush) (by rw [hu]; exact htx) hloop

theorem exec_serWrite_case_of_idle {s : State} (b z : Word) (hidle : s.phase = .idle) :
    ∃ t, exec (.serWrite b z) s = .next t ∧ SerCase b z s t := by
  by_cases hpast : 0 < z.toNat ∧ 2 ^ s.cfg.addrBits < bufAddress s.cfg b + z.toNat
  · obtain ⟨hpos, hpast⟩ := hpast
    exact ⟨_, exec_serWrite_badBuffer hidle hpos hpast, .badBuffer hidle hpos hpast⟩
  have hfits : z.toNat = 0 ∨ bufAddress s.cfg b + z.toNat ≤ 2 ^ s.cfg.addrBits := by omega
  cases hlink : linkUsable s with
  | false => exact ⟨_, exec_serWrite_unlinked hfits hidle hlink, .gaveUp (by rw [hidle]; rfl) _ _ _⟩
  | true =>
    by_cases hsticky : s.txTimedOutPrev = false ∨ writable .cdcTx s = true
    · rw [exec_serWrite_loops hfits hidle hlink hsticky]
      exact serCase_of_loop (.inl ⟨hidle, rfl, rfl, rfl, hfits⟩) rfl (Nat.le_refl _)
    · simp only [not_or, Bool.not_eq_false, Bool.not_eq_true] at hsticky
      exact ⟨_, exec_serWrite_sticky hfits hidle hlink hsticky.1 hsticky.2, .gaveUp (by rw [hidle]; rfl) _ _ _⟩

theorem exec_serWrite_case_of_wait {s : State} {buf size count start : Nat} (b z : Word)
    (hwait : s.phase = .serWait buf size count start) : ∃ t, exec (.serWrite b z) s = .next t ∧ SerCase b z s t := by
  cases hlink : linkUsable s with
  | false => exact ⟨_, exec_serWrite_lost hwait hlink, .gaveUp (by rw [hwait]; rfl) _ _ _⟩
  | true =>
    obtain hearly | hdeadline := Nat.lt_or_ge (subMod s.cfg.frameBits s.frame start) s.cfg.txTimeout
    · cases hfree : writable .cdcTx s with
      | false => exact ⟨_, exec_serWrite_waits hwait hlink hearly hfree, .waits hwait⟩
      | true =>
        obtain rfl | hpos := Nat.eq_zero_or_pos size
        · obtain ⟨t, ht, hwrote⟩ := writeAfterWait_ready_wrote 0 s.ie buf 0 count start
            (enterSelect_sel InEp.cdcTx.toEndpoint s) (Nat.le_refl _) ((writable_enterSelect ..).trans hfree)
          refine ⟨t, ?_, .wrote (.inr ⟨start, hwait⟩) rfl hwrote fun hfrom => ?_⟩
          · exact (exec_serWrite_resumes hwait hlink hearly hfree).trans (congrArg (conclude s) ht)
          · simp [hwait] at hfrom
        · rw [exec_serWrite_goesOn hwait hlink hearly hpos hfree]
          exact serCase_of_loop (.inr ⟨start, hwait⟩) rfl (Nat.le_succ _)
    · exact ⟨_, exec_serWrite_timesOut hwait hlink hdeadline, .gaveUp (by rw [hwait]; rfl) _ _ _⟩

/-- The fields a step of SER_WRITE may write; every other one is that of `s`. -/
theorem SerCase.writes {b z : Word} {s t : State} (h : SerCase b z s t) : t = { s with
    res := t.res, cix := t.cix, phase := t.phase, sel := t.sel, cdcTx := t.cdcTx, txTimedOutPrev := t.txTimedOutPrev
    flushRemaining := t.flushRemaining, writeError := t.writeError, status := t.status } := by
  cases h with
  | wrote hfrom hu hwrote _ => rw [hwrote.frame, hu]
  | _ => rfl

/-- A step of SER_WRITE from a phase of another command stops. -/
theorem exec_serWrite_of_foreign {s : State} (b z : Word) (hidle : s.phase ≠ .idle)
    (hwait : ∀ buf size count start, s.phase ≠ .serWait buf size count start) :
    exec (.serWrite b z) s = .fault .phaseMismatch := by
  show execSerWrite b z s = _
  unfold execSerWrite
  split
  · contradiction
  · next h => exact absurd h (hwait _ _ _ _)
  · rfl

/-- What a next state of SER_WRITE comes from. -/
theorem serCase_of_exec {b z : Word} {s t : State} (hnext : exec (.serWrite b z) s = .next t) : SerCase b z s t := by
  by_cases hidle : s.phase = .idle
  · obtain ⟨u, hu, hcase⟩ := exec_serWrite_case_of_idle b z hidle
    obtain rfl : u = t := by simpa using hu.symm.trans hnext
    exact hcase
  by_cases hwait : ∃ buf size count start, s.phase = .serWait buf size count start
  · obtain ⟨buf, size, count, start, hwait⟩ := hwait
    obtain ⟨u, hu, hcase⟩ := exec_serWrite_case_of_wait b z hwait
    obtain rfl : u = t := by simpa using hu.symm.trans hnext
    exact hcase
  · rw [exec_serWrite_of_foreign b z hidle fun buf size count start h => hwait ⟨_, _, _, _, h⟩] at hnext
    cases hnext

/-! ## The obligations on SER_WRITE -/

/-- Settles O29: the branches of `writeStart_eq` that do not reach the loop, and the loop with nothing to write. -/
theorem serWriteFailsFast : Obligations.SerWriteFailsFast := by
  refine fun s buf size hidle => ⟨fun hpos hpast => exec_serWrite_badBuffer hidle hpos hpast, fun hfits =>
    ⟨fun hlink => ?_, fun hlink hsticky hfull => ?_, fun hlink hsticky hzero => ?_⟩⟩
  · rw [exec_serWrite_unlinked hfits hidle hlink, complete_of_idle (s := markWriteError s) hidle]
    rfl
  · rw [exec_serWrite_sticky hfits hidle hlink hsticky hfull,
      complete_of_idle (s := markWriteError (select .cdcTx s)) hidle]
    rfl
  · rw [exec_serWrite_loops hfits hidle hlink hsticky, hzero, writeLoop_done, conclude_ok, writeDone,
      complete_of_idle (by exact hidle)]
    rfl

/-- Bytes that fit in the free banks leave the endpoint writable. -/
theorem writable_of_fits {s : State} {n : Nat} (hpos : 0 < n) (hroom : s.cdcTx.cur.length < s.cfg.size.cdcTx)
    (hcap : s.cdcTx.cur.length + n ≤ (s.cfg.banks.cdcTx - s.cdcTx.released.length) * s.cfg.size.cdcTx) :
    writable .cdcTx s = true := by
  refine (writable_cdcTx s).2 ⟨?_, hroom⟩
  by_contra hfull
  rw [Nat.sub_eq_zero_of_le (Nat.not_lt.1 hfull), Nat.zero_mul] at hcap
  omega

/-- Settles O30: the loop on a stream that fits, and how a stream splits into packets and a rest. -/
theorem serWriteFraming : Obligations.SerWriteFraming := by
  intro s buf size bs rest hidle hlink hpos hfits hroom hcap
  have hsize : 0 < s.cfg.size.cdcTx := Nat.zero_lt_of_lt hroom
  have hlen : s.cdcTx.cur.length + size.toNat ≤
      (s.cfg.banks.cdcTx - s.cdcTx.released.length) * s.cfg.size.cdcTx := by
    simpa [bs] using hcap
  refine ⟨?_, packetRest_length _ _, fullPackets_length _ _, fun p => fullPackets_size hsize, fullPackets_flatten hsize bs⟩
  rw [exec_serWrite_loops (.inr hfits) hidle hlink (.inr (writable_of_fits hpos hroom hlen)),
    writeLoop_fits _ _ _ _ _ (clearTimedOut (enterSelect .cdcTx s)) rfl (Nat.le_refl _) hpos hroom hlen, conclude_ok,
    writeDone, complete_of_idle (by exact hidle), Nat.zero_add, natResult, BitVec.ofNat_toNat, BitVec.setWidth_eq]
  rfl

/-- Settles O31: the three ends of the wait, and from a writable endpoint the loop's two ends. -/
theorem serWriteWaitOutcomes : Obligations.SerWriteWaitOutcomes := by
  intro s b z buf size count start hwait cap bs rest
  refine ⟨fun hlink => exec_serWrite_lost hwait hlink, fun hlink hdeadline => exec_serWrite_timesOut hwait hlink hdeadline,
    fun hlink hearly hfull => exec_serWrite_waits hwait hlink hearly hfull, fun hlink hearly hpos hroom hcap => ?_,
    fun hlink hearly hfree hmore => ?_⟩
  · have hlen : s.cdcTx.cur.length + size ≤
        (s.cfg.banks.cdcTx - s.cdcTx.released.length) * s.cfg.size.cdcTx := by
      simpa [bs] using hcap
    rw [exec_serWrite_goesOn hwait hlink hearly hpos (writable_of_fits hpos hroom hlen),
      writeLoop_fits _ _ _ _ _ (enterSelect .cdcTx s) rfl (Nat.le_succ _) hpos hroom hlen, conclude_ok]
    rfl
  · obtain ⟨hbank, hroom⟩ := (writable_cdcTx s).1 hfree
    have hbanks : 1 * s.cfg.size.cdcTx ≤ (s.cfg.banks.cdcTx - s.cdcTx.released.length) * s.cfg.size.cdcTx :=
      Nat.mul_le_mul_right _ (by omega)
    have hcap : cap + s.cdcTx.cur.length = (s.cfg.banks.cdcTx - s.cdcTx.released.length) * s.cfg.size.cdcTx :=
      Nat.sub_add_cancel (by omega)
    have hcap0 : cap ≠ 0 := by omega
    rw [exec_serWrite_goesOn hwait hlink hearly (by omega) hfree,
      writeLoop_fills _ _ _ _ _ cap (enterSelect .cdcTx s) rfl (Nat.le_succ _) hroom (Nat.le_of_lt hbank)
        (fun hno => absurd hno (Nat.ne_of_lt hbank)) hcap hmore, conclude_ok, filled, if_neg hcap0]
    rfl

/-- Settles O33: `SerCase.writes` lists what a step may write; the log is no part of what the loop writes, and
`writeError` is only ever set. -/
theorem serWriteFrame : Obligations.SerWriteFrame := by
  intro s t buf size hnext
  have hcase := serCase_of_exec hnext
  have hwrites := hcase.writes
  refine ⟨?_, ?_, ?_, ?_, ?_, ?_, ?_, ?_, ?_, ?_, ?_, ?_, ?_, ?_, ?_, ?_, ?_, ?_, ?_, ?_, ?_, ?_, ?_, ?_, ?_, ?_, ?_, ?_,
    ?_, ?_, ?_⟩
  case refine_30 =>
    cases hcase with
    | wrote hfrom hu hwrote _ => rw [hwrote.log, hu]
    | _ => rfl
  case refine_31 =>
    intro herror
    cases hcase with
    | gaveUp => rfl
    | wrote hfrom hu hwrote _ => rw [hwrote.frame, hu]; exact herror
    | _ => exact herror
  all_goals rw [hwrites]

end Sys2Proof.Machine.SerialLaws
end

section
/-! SUPPORT. What one MAIN step of a command can do (30_encoding.md R80), said once for all 39 commands: `mainOutcome`.
The statements about every command are read off it. -/

namespace Sys2Proof.Machine.MainLaws

open SerialLaws (SerCase exec_serWrite_case_of_idle exec_serWrite_case_of_wait exec_serWrite_of_foreign)
open HidLaws (hidPrepare hidPrepare_writes hidSilent exec_hid_start exec_hid_yield exec_hid_wait)
open SampleLaws (exec_micros_opens exec_micros_closes exec_delay_opens exec_delay_starts exec_delay_reopens
  exec_delay_counts)

/-! ## The phases of a command -/

/-- The phases at which a command may be found (10_state.md R21, R22). -/
def OwnPhase (i : Instr) : Phase → Prop
  | .idle => True
  | .microsWindow _ => i = .micros
  | .delayFirst _ _ | .delayYield _ _ | .delayWindow _ _ _ => ∃ total, i = .delay total
  | .serWait _ _ _ _ => ∃ b z, i = .serWrite b z
  | .hidWait stage _ => 1 ≤ stage ∧ stage ≤ sendCount i
  | .hidYield stage => 1 ≤ stage ∧ stage < sendCount i

/-- A command of one step is found idle only. -/
def OneStep (i : Instr) : Prop := ∀ p, OwnPhase i p → p = .idle

/-! ## The kinds of step -/

/-- What a command of one step has done to `s` when it completes. -/
inductive QuickCase (i : Instr) (s : State) : State → Prop
  | reads : QuickCase i s s
  | selects : QuickCase i s { s with sel := .cdcRx }
  | receives (rest : List (List Byte)) (held : Option Byte) (hlen : rest.length ≤ s.rx.length)
      (hbanks : ∀ bank ∈ rest, ∃ old ∈ s.rx, bank.length ≤ old.length) :
      QuickCase i s { s with sel := .cdcRx, rx := rest, peekByte := held }
  | unpeeks : QuickCase i s { s with peekByte := none }
  | releases : QuickCase i s { s with sel := .cdcTx, cdcTx := s.cdcTx.release, flushRemaining := none }
  | setsKey (k : Fin 8) (v : Byte) (hk : k ≠ 1) : QuickCase i s (setKb k v s)
  | setsJoystick (js : Vector Byte 12) : QuickCase i s { s with js := js }
  | setsIe (ie : Bool) (hi : changesIe i = true) : QuickCase i s { s with ie := ie }

/-- The send number `stage` of a HID command is at hand, from the state `u`: `s` itself when the send has waited, and
`s` with the report written when it begins. -/
structure SendAt (i : Instr) (s : State) (stage : Nat) (u : State) : Prop where
  lo : 1 ≤ stage
  hi : stage ≤ sendCount i
  closed : s.phase.openSample = none
  writes : u = { s with kb := u.kb, msButtons := u.msButtons }
  reserved : s.kb[1] = 0 → u.kb[1] = 0
  buttons : i.wf = true → buttonsOk s.msButtons = true → buttonsOk u.msButtons = true

/-- A MAIN step of command `i` from `s`. -/
inductive MainCase (i : Instr) (s : State) : State → Prop
  | quick (v : Word) {u : State} (hidle : s.phase = .idle) (hquick : QuickCase i s u) : MainCase i s (complete v u)
  | stops (attached : Bool) (status : RunStatus) (hidle : s.phase = .idle) (hi : changesIe i = true)
      (hstopped : status ≠ .running) (hclean : ∀ code, status ≠ .faulted code) :
      MainCase i s { s with ie := false, timerRunning := false, usbAttached := attached, status := status }
  | badOperand {idx : Word} {v : Byte} (hi : i = .jsSetByte idx v) (hidx : 12 ≤ idx.toNat) (hidle : s.phase = .idle) :
      MainCase i s (raiseFault .badOperand s)
  | microsOpens (hi : i = .micros) (hidle : s.phase = .idle) :
      MainCase i s { s with ie := false, phase := .microsWindow ⟨s.ie, s.tcnt, false⟩ }
  | delayOpens {total : Word} (hi : i = .delay total) (hidle : s.phase = .idle) :
      MainCase i s { s with ie := false, phase := .delayFirst ⟨s.ie, s.tcnt, false⟩ total }
  | delayReopens {total ms start : Word} (hi : i = .delay total) (hyield : s.phase = .delayYield ms start) :
      MainCase i s { s with ie := false, phase := .delayWindow ⟨s.ie, s.tcnt, false⟩ ms start }
  | sampleEnds (v : Word) {w : Sample} (hopen : s.phase.openSample = some w) :
      MainCase i s (complete v (csExit w.saved s))
  | delayYields {total : Word} {w : Sample} (ms start : Word) (hi : i = .delay total)
      (hopen : s.phase.openSample = some w) (hms : ms ≠ 0) :
      MainCase i s { s with ie := w.saved, phase := .delayYield ms start }
  | writes {b z : Word} {t : State} (hi : i = .serWrite b z) (hcase : SerCase b z s t) : MainCase i s t
  | drops {stage : Nat} {u : State} (hat : SendAt i s stage u) : MainCase i s (afterSend i stage u)
  | waits {e : InEp} {stage start : Nat} {u : State} (hchan : hidChannel i = some e) (hat : SendAt i s stage u)
      (hstart : start = s.frame ∨ s.phase = .hidWait stage start) :
      MainCase i s { u with sel := e.toEndpoint, phase := .hidWait stage start }
  | sends {e : InEp} {stage : Nat} {u : State} (hchan : hidChannel i = some e) (hat : SendAt i s stage u)
      (hfree : writable e u = true) (hfits : (u.inEp e).cur.length + (hidReport i e u).length ≤ u.cfg.size.at e) :
      MainCase i s (afterSend i stage (hidAppended e (hidReport i e u) u))

/-- What a MAIN step of command `i` from `s` answers. -/
inductive MainOutcome (i : Instr) (s : State) : StepOutcome → Prop
  | next {t : State} (hcase : MainCase i s t) : MainOutcome i s (.next t)
  | mismatch (hforeign : ¬ OwnPhase i s.phase) : MainOutcome i s (.fault .phaseMismatch)
  | overlong {e : InEp} {stage : Nat} {u : State} (hchan : hidChannel i = some e) (hat : SendAt i s stage u)
      (hlong : u.cfg.size.at e < (u.inEp e).cur.length + (hidReport i e u).length) :
      MainOutcome i s (.fault .appendPrecondition)

section

variable {i : Instr} {s : State}

/-! ## Commands of one step -/

theorem outcome_atIdle {body : State → Except Stop State} (hone : OneStep i)
    (hbody : s.phase = .idle → MainOutcome i s (conclude s (body s))) : MainOutcome i s (atIdle body s) := by
  unfold atIdle
  split
  · next hidle => exact hbody hidle
  · next hbusy => exact .mismatch fun hown => hbusy (hone _ hown)

/-- A body that runs through to its completion. -/
theorem outcome_quick {body : State → Except Stop State} {v : Word} {u : State} (hone : OneStep i)
    (hbody : body s = .ok (complete v u)) (hquick : QuickCase i s u) : MainOutcome i s (atIdle body s) := by
  refine outcome_atIdle hone fun hidle => ?_
  rw [hbody, conclude_ok]
  exact .next (.quick v hidle hquick)

/-- Taking the next byte never lengthens a bank. -/
theorem rxNext_banks (rx : List (List Byte)) : ∀ bank ∈ (rxNext rx).2, ∃ old ∈ rx, bank.length ≤ old.length := by
  induction rx using rxNext.induct with
  | case1 => nofun
  | case2 rest ih =>
    intro bank hbank
    obtain ⟨old, hold, hle⟩ := ih bank hbank
    exact ⟨old, List.mem_cons_of_mem _ hold, hle⟩
  | case3 b rest => exact fun bank hbank => ⟨bank, List.mem_cons_of_mem _ hbank, Nat.le_refl _⟩
  | case4 b c bank rest =>
    intro x hx
    obtain rfl | hx := List.mem_cons.1 hx
    · exact ⟨_, List.mem_cons_self, Nat.le_succ _⟩
    · exact ⟨x, List.mem_cons_of_mem _ hx, Nat.le_refl _⟩

theorem quick_rxNext (held : Option Byte) :
    QuickCase i s { s with sel := .cdcRx, rx := (rxNext s.rx).2, peekByte := held } :=
  .receives _ held (SerialLaws.rxNext_snd_length_le s.rx) (rxNext_banks s.rx)

theorem outcome_serAvailable (hone : OneStep i) : MainOutcome i s (execSerAvailable s) := by
  refine outcome_atIdle hone fun hidle => ?_
  simp only [linkUsable_enterSelect, rxTotal_eq (enterSelect_sel .cdcRx s), csExit_enterSelect]
  cases linkUsable s <;> exact .next (.quick _ hidle .selects)

theorem outcome_serPeek (hone : OneStep i) : MainOutcome i s (execSerPeek s) := by
  refine outcome_atIdle hone fun hidle => ?_
  cases hheld : s.peekByte with
  | some b => exact .next (.quick _ hidle .reads)
  | none =>
    cases hlink : linkUsable s with
    | false =>
      simp only [rxGet_unusable hlink, ok_bind]
      exact .next (.quick _ hidle .reads)
    | true =>
      simp only [rxGet_usable hlink, ok_bind]
      cases (rxNext s.rx).1 with
      | some b => exact .next (.quick _ hidle (quick_rxNext (some b)))
      | none => exact .next (.quick _ hidle (quick_rxNext s.peekByte))

theorem outcome_serRead (hone : OneStep i) : MainOutcome i s (execSerRead s) := by
  refine outcome_atIdle hone fun hidle => ?_
  cases hheld : s.peekByte with
  | some b => exact .next (.quick _ hidle .unpeeks)
  | none =>
    cases hlink : linkUsable s with
    | false =>
      simp only [rxGet_unusable hlink, ok_bind]
      exact .next (.quick _ hidle .reads)
    | true =>
      simp only [rxGet_usable hlink, ok_bind]
      exact .next (.quick _ hidle (quick_rxNext s.peekByte))

theorem outcome_serFlush (hone : OneStep i) : MainOutcome i s (execSerFlush s) := by
  refine outcome_atIdle hone fun hidle => ?_
  simp only [linkUsable_csEnter, rxReleaseAll_eq (s := select .cdcRx (csEnter s)) rfl]
  cases linkUsable s with
  | false => exact .next (.quick _ hidle .unpeeks)
  | true => exact .next (.quick _ hidle (.receives [] none (Nat.zero_le _) nofun))

theorem outcome_serSendNow (hone : OneStep i) : MainOutcome i s (execSerSendNow s) := by
  refine outcome_atIdle hone fun hidle => ?_
  simp only [epRelease_eq (e := .cdcTx) (s := select .cdcTx (csEnter s)) rfl, ok_bind, pure_eq_ok]
  split
  · exact .next (.quick _ hidle .releases)
  · exact .next (.quick _ hidle .reads)

theorem outcome_jsSetByte {idx : Word} {v : Byte} (hone : OneStep (.jsSetByte idx v)) :
    MainOutcome (.jsSetByte idx v) s (execJsSetByte idx v s) := by
  refine outcome_atIdle hone fun hidle => ?_
  split
  · exact .next (.quick _ hidle (.setsJoystick _))
  · next hidx => exact .next (.badOperand rfl (Nat.not_lt.1 hidx) hidle)

theorem outcome_millis (hone : OneStep i) : MainOutcome i s (execMillis s) := outcome_quick (u := s) hone rfl .reads

theorem outcome_delayUs (hone : OneStep i) (us : Word) : MainOutcome i s (execDelayUs us s) :=
  outcome_quick (u := s) hone rfl .reads

theorem outcome_serGetWriteError (hone : OneStep i) : MainOutcome i s (execSerGetWriteError s) :=
  outcome_quick (u := s) hone rfl .reads

theorem outcome_accessor (hone : OneStep i) (field : State → Word) (s : State) : MainOutcome i s (accessor field s) :=
  outcome_quick (u := s) hone rfl .reads

theorem outcome_kbSetter (hone : OneStep i) (k : Fin 8) (hk : k ≠ 1) (v : Byte) (s : State) :
    MainOutcome i s (kbSetter k v s) :=
  outcome_quick hone rfl (.setsKey k v hk)

theorem outcome_sysReboot (hone : OneStep .sysReboot) : MainOutcome .sysReboot s (execSysReboot s) :=
  outcome_atIdle hone fun hidle => .next (.stops false (.rebooted s.cfg.bootloaderEntry) hidle rfl nofun nofun)

theorem outcome_sysRestart (hone : OneStep .sysRestart) : MainOutcome .sysRestart s (execSysRestart s) :=
  outcome_atIdle hone fun hidle => .next (.stops s.usbAttached (.restarted 0) hidle rfl nofun nofun)

theorem outcome_csEnter (hone : OneStep .csEnter) : MainOutcome .csEnter s (execCsEnter s) :=
  outcome_quick hone rfl (.setsIe false rfl)

theorem outcome_csExit (saved : Bool) (hone : OneStep (.csExit saved)) :
    MainOutcome (.csExit saved) s (execCsExit saved s) :=
  outcome_quick hone rfl (.setsIe saved rfl)

/-! ## MICROS and DELAY -/

theorem outcome_micros : MainOutcome .micros s (exec .micros s) := by
  cases hphase : s.phase with
  | idle =>
    rw [exec_micros_opens hphase]
    exact .next (.microsOpens rfl hphase)
  | microsWindow w =>
    rw [exec_micros_closes hphase]
    exact .next (.sampleEnds _ (by rw [hphase]; rfl))
  | _ =>
    have hfault : exec .micros s = .fault .phaseMismatch := by
      show execMicros s = _
      simp only [execMicros, hphase]
    rw [hfault]
    exact .mismatch (by simp [hphase, OwnPhase, sendCount, Nat.one_le_iff_ne_zero])

/-- The head of DELAY's loop ends the command or yields with milliseconds left. -/
theorem outcome_delayHead {total : Word} {w : Sample} (hopen : s.phase.openSample = some w) (ms start : Word) :
    MainOutcome (.delay total) s (.next (delayHead ms start (csExit w.saved s))) := by
  unfold delayHead
  split
  · exact .next (.sampleEnds _ hopen)
  · next hms => exact .next (.delayYields ms start rfl hopen hms)

theorem outcome_delay (total : Word) : MainOutcome (.delay total) s (exec (.delay total) s) := by
  cases hphase : s.phase with
  | idle =>
    rw [exec_delay_opens hphase]
    exact .next (.delayOpens rfl hphase)
  | delayFirst w ms =>
    rw [exec_delay_starts hphase]
    exact outcome_delayHead (by rw [hphase]; rfl) _ _
  | delayYield ms start =>
    rw [exec_delay_reopens hphase]
    exact .next (.delayReopens rfl hphase)
  | delayWindow w ms start =>
    rw [exec_delay_counts hphase, delayCount]
    split <;> exact outcome_delayHead (by rw [hphase]; rfl) _ _
  | _ =>
    have hfault : exec (.delay total) s = .fault .phaseMismatch := by
      show execDelay total s = _
      simp only [execDelay, hphase]
    rw [hfault]
    exact .mismatch (by simp [hphase, OwnPhase, sendCount, Nat.one_le_iff_ne_zero])

/-! ## SER_WRITE -/

theorem outcome_serWrite (b z : Word) : MainOutcome (.serWrite b z) s (exec (.serWrite b z) s) := by
  cases hphase : s.phase with
  | idle =>
    obtain ⟨t, ht, hcase⟩ := exec_serWrite_case_of_idle b z hphase
    rw [ht]
    exact .next (.writes rfl hcase)
  | serWait buf size count start =>
    obtain ⟨t, ht, hcase⟩ := exec_serWrite_case_of_wait b z hphase
    rw [ht]
    exact .next (.writes rfl hcase)
  | _ =>
    rw [exec_serWrite_of_foreign b z (by simp [hphase]) (by simp [hphase])]
    exact .mismatch (by simp [hphase, OwnPhase, sendCount, Nat.one_le_iff_ne_zero])

/-! ## HID commands -/

/-- A HID command at a phase of another command stops. -/
theorem exec_hid_foreign {e : InEp} (hchan : hidChannel i = some e) (hforeign : ¬ OwnPhase i s.phase) :
    exec i s = .fault .phaseMismatch := by
  cases i <;> cases hchan <;>
    simp only [exec, execKbSendNow, execKbReleaseAll, execKbType, execMsMove, execMsPress, execMsRelease, changeButtons,
      execMsClick, execMsSetButtons, execJsSendNow] <;>
    split <;> simp_all [OwnPhase, sendCount]

/-! ### The report before a send -/

theorem buttonsOk_iff (b : Byte) : buttonsOk b = true ↔ b &&& buttonMask = b := beq_iff_eq

theorem buttonsOk_or {a b : Byte} (ha : buttonsOk a = true) (hb : buttonsOk b = true) : buttonsOk (a ||| b) = true := by
  rw [buttonsOk_iff] at *
  rw [BitVec.and_or_distrib_right, ha, hb]

theorem buttonsOk_and {a : Byte} (b : Byte) (ha : buttonsOk a = true) : buttonsOk (a &&& b) = true := by
  rw [buttonsOk_iff] at *
  rw [BitVec.and_assoc, BitVec.and_comm b, ← BitVec.and_assoc, ha]

theorem buttonsOk_buttonsByte (l r m b f : Bool) : buttonsOk (buttonsByte l r m b f) = true := by
  revert l r m b f
  decide

/-- A send that begins, from the state with its report written (R188, R189, R193 to R196). -/
theorem sendAt_prepare {stage : Nat} (lo : 1 ≤ stage) (hi : stage ≤ sendCount i) (closed : s.phase.openSample = none) :
    SendAt i s stage (hidPrepare i stage s) where
  lo := lo
  hi := hi
  closed := closed
  writes := hidPrepare_writes i stage s
  reserved := by
    intro hreserved
    unfold hidPrepare
    split <;> simp [setKb, setButtons, hreserved]
  buttons := by
    intro hwf hok
    unfold hidPrepare
    split
    case h_6 b _ => exact buttonsOk_or hok hwf
    case h_7 => exact buttonsOk_and _ hok
    case h_8 b _ => exact hwf
    case h_9 => exact (by decide : buttonsOk 0 = true)
    case h_10 => exact buttonsOk_buttonsByte ..
    all_goals exact hok

/-- A send that has waited goes on from the state as it is. -/
theorem sendAt_self {stage : Nat} (lo : 1 ≤ stage) (hi : stage ≤ sendCount i) (closed : s.phase.openSample = none) :
    SendAt i s stage s :=
  ⟨lo, hi, closed, rfl, id, fun _ => id⟩

/-! ### The send -/

theorem outcome_hidSend {e : InEp} {stage : Nat} {u : State} (hchan : hidChannel i = some e) (hat : SendAt i s stage u) :
    MainOutcome i s (conclude s (hidSend e (hidReport i e u) stage (afterSend i stage) u)) := by
  have hframe : u.frame = s.frame := by rw [hat.writes]
  rw [hidSend_eq]
  split
  · exact .next (.drops hat)
  · split
    · exact .next (.waits hchan hat (.inl hframe))
    · next hfree =>
      split
      · next hfits => exact .next (.sends hchan hat (by simpa using hfree) hfits)
      · next hlong => exact .overlong hchan hat (Nat.not_le.1 hlong)

theorem outcome_hidResume {e : InEp} {stage start : Nat} (hchan : hidChannel i = some e) (hat : SendAt i s stage s)
    (hwait : s.phase = .hidWait stage start) :
    MainOutcome i s (conclude s (hidResume e (hidReport i e s) stage start (afterSend i stage) s)) := by
  rw [hidResume_eq]
  split
  · exact .next (.drops hat)
  · split
    · exact .next (.waits hchan hat (.inr hwait))
    · next hfree =>
      split
      · next hfits => exact .next (.sends hchan hat (by simpa using hfree) hfits)
      · next hlong => exact .overlong hchan hat (Nat.not_le.1 hlong)

theorem sendCount_pos {e : InEp} (hchan : hidChannel i = some e) : 1 ≤ sendCount i := by
  cases i <;> cases hchan <;> simp [sendCount]

theorem outcome_hid {e : InEp} (hchan : hidChannel i = some e) : MainOutcome i s (exec i s) := by
  by_cases hown : OwnPhase i s.phase
  case neg =>
    rw [exec_hid_foreign hchan hown]
    exact .mismatch hown
  cases hphase : s.phase with
  | idle =>
    rw [exec_hid_start hchan hphase]
    split
    · exact .next (.quick _ hphase .reads)
    · exact outcome_hidSend hchan (sendAt_prepare (Nat.le_refl 1) (sendCount_pos hchan) (by rw [hphase]; rfl))
  | hidWait stage start =>
    rw [hphase] at hown
    obtain ⟨hlo, hhi⟩ := hown
    rw [exec_hid_wait hchan hphase hlo hhi]
    exact outcome_hidResume hchan (sendAt_self hlo hhi (by rw [hphase]; rfl)) hphase
  | hidYield stage =>
    rw [hphase] at hown
    obtain ⟨hlo, hhi⟩ := hown
    rw [exec_hid_yield hchan hphase hlo hhi]
    exact outcome_hidSend hchan (sendAt_prepare (Nat.le_add_left 1 stage) hhi (by rw [hphase]; rfl))
  | _ => cases i <;> cases hchan <;> simp [hphase, OwnPhase] at hown

end

/-! ## Every command -/

/-- The commands that are neither MICROS, DELAY, SER_WRITE nor HID commands are of one step. -/
theorem oneStep_of {i : Instr} (hchan : hidChannel i = none) (hmicros : i ≠ .micros) (hdelay : ∀ total, i ≠ .delay total)
    (hwrite : ∀ b z, i ≠ .serWrite b z) : OneStep i := by
  have hsends : sendCount i = 0 := by cases i <;> cases hchan <;> rfl
  intro p hown
  cases p <;> simp_all [OwnPhase, Nat.one_le_iff_ne_zero]

/-- What any MAIN step of any command answers. -/
theorem mainOutcome (i : Instr) (s : State) : MainOutcome i s (exec i s) := by
  cases hchan : hidChannel i with
  | some e => exact outcome_hid hchan
  | none =>
    have hone := oneStep_of hchan
    cases i with
    | micros => exact outcome_micros
    | delay total => exact outcome_delay total
    | serWrite b z => exact outcome_serWrite b z
    | millis => exact outcome_millis (hone nofun nofun nofun)
    | delayUs us => exact outcome_delayUs (hone nofun nofun nofun) us
    | serAvailable => exact outcome_serAvailable (hone nofun nofun nofun)
    | serPeek => exact outcome_serPeek (hone nofun nofun nofun)
    | serRead => exact outcome_serRead (hone nofun nofun nofun)
    | serFlush => exact outcome_serFlush (hone nofun nofun nofun)
    | serSendNow => exact outcome_serSendNow (hone nofun nofun nofun)
    | serBaud => exact outcome_accessor (hone nofun nofun nofun) (fun s => s.line.baud) s
    | serStopbits => exact outcome_accessor (hone nofun nofun nofun) (fun s => byteResult s.line.stopbits) s
    | serParitytype => exact outcome_accessor (hone nofun nofun nofun) (fun s => byteResult s.line.paritytype) s
    | serNumbits => exact outcome_accessor (hone nofun nofun nofun) (fun s => byteResult s.line.numbits) s
    | serDtr => exact outcome_accessor (hone nofun nofun nofun) (fun s => boolResult s.line.dtr) s
    | serRts => exact outcome_accessor (hone nofun nofun nofun) (fun s => boolResult s.line.rts) s
    | serReady => exact outcome_accessor (hone nofun nofun nofun) (fun s => boolResult (linkReady s)) s
    | serGetWriteError => exact outcome_serGetWriteError (hone nofun nofun nofun)
    | kbSetModifier v | kbSetKey1 v | kbSetKey2 v | kbSetKey3 v | kbSetKey4 v | kbSetKey5 v | kbSetKey6 v =>
      exact outcome_kbSetter (hone nofun nofun nofun) _ (by decide) v s
    | jsSetByte idx v => exact outcome_jsSetByte (hone nofun nofun nofun)
    | sysReboot => exact outcome_sysReboot (hone nofun nofun nofun)
    | sysRestart => exact outcome_sysRestart (hone nofun nofun nofun)
    | csEnter => exact outcome_csEnter (hone nofun nofun nofun)
    | csExit saved => exact outcome_csExit saved (hone nofun nofun nofun)
    | kbSendNow | kbReleaseAll | kbType | msMove | msPress | msRelease | msClick | msSetButtons | jsSendNow => cases hchan

/-- What a next state comes from. -/
theorem mainCase_of_exec {i : Instr} {s t : State} (hnext : exec i s = .next t) : MainCase i s t := by
  have houtcome := mainOutcome i s
  rw [hnext] at houtcome
  cases houtcome
  assumption

end Sys2Proof.Machine.MainLaws
end

section
/-! SUPPORT. What every MAIN step keeps, read off `MainCase`: the fields it never writes, `cix` and `RES`, the interrupt
state, the run status, the order of packets; the same for a step of the machine; and the obligations that follow. -/

namespace Sys2Proof.Machine.MainLaws

open SerialLaws (SerCase WriteFrom)
open AgentLaws (EnvCase envStep_case poll_hostLog inEp_poll)
open StepLaws (step_of_nil step_of_main step_of_env)

/-! ## After a send -/

/-- A HID command's send is followed by its end or by its yield. -/
theorem afterSend_cases (i : Instr) (stage : Nat) (s : State) :
    (stage = sendCount i ∧ afterSend i stage s = finishVoid s) ∨
    (stage ≠ sendCount i ∧ afterSend i stage s = yieldAfter stage s) := by
  unfold afterSend
  split
  · next h => exact .inl ⟨h, rfl⟩
  · next h => exact .inr ⟨h, rfl⟩

theorem SendAt.exists_report {i : Instr} {s u : State} {stage : Nat} (h : SendAt i s stage u) :
    ∃ kb buttons, u = { s with kb := kb, msButtons := buttons } := ⟨_, _, h.writes⟩

/-! ## The fields MAIN may write -/

/-- `t` is `s` but for the fields a command may write. -/
def MainWrites (s t : State) : Prop := t = { s with
  res := t.res, cix := t.cix, phase := t.phase, ie := t.ie, timerRunning := t.timerRunning
  usbAttached := t.usbAttached, sel := t.sel, cdcTx := t.cdcTx, kbEp := t.kbEp, msEp := t.msEp, jsEp := t.jsEp
  rx := t.rx, peekByte := t.peekByte, txTimedOutPrev := t.txTimedOutPrev, flushRemaining := t.flushRemaining
  writeError := t.writeError, kb := t.kb, msButtons := t.msButtons, js := t.js, status := t.status }

section

variable {i : Instr} {s t u : State}

theorem MainWrites.trans (hst : MainWrites s t) (htu : MainWrites t u) : MainWrites s u := by
  unfold MainWrites at *
  rw [htu, hst]

theorem QuickCase.mainWrites (h : QuickCase i s u) : MainWrites s u := by
  cases h <;> rfl

theorem SendAt.mainWrites {stage : Nat} (h : SendAt i s stage u) : MainWrites s u := by
  obtain ⟨kb, buttons, rfl⟩ := h.exists_report
  rfl

theorem afterSend_mainWrites (i : Instr) (stage : Nat) (s : State) : MainWrites s (afterSend i stage s) := by
  obtain ⟨-, h⟩ | ⟨-, h⟩ := afterSend_cases i stage s <;> rw [h] <;> rfl

theorem hidAppended_mainWrites (e : InEp) (report : List Byte) (s : State) : MainWrites s (hidAppended e report s) := by
  cases e <;> rfl

theorem MainCase.mainWrites (h : MainCase i s t) : MainWrites s t := by
  cases h with
  | quick v hidle hquick => exact hquick.mainWrites.trans rfl
  | writes hi hcase =>
    unfold MainWrites
    rw [hcase.writes]
  | drops hat => exact hat.mainWrites.trans (afterSend_mainWrites ..)
  | waits hchan hat hstart => exact hat.mainWrites.trans rfl
  | sends hchan hat hfree hfits =>
    exact hat.mainWrites.trans ((hidAppended_mainWrites ..).trans (afterSend_mainWrites ..))
  | _ => rfl

/-! ## `cix` and `RES` -/

/-- A step completes its command, or leaves `cix` and `RES`; then it stays busy or has stopped the block. -/
def Progress (s t : State) : Prop :=
  (t.phase = .idle ∧ t.cix = s.cix + 1) ∨ (t.cix = s.cix ∧ t.res = s.res ∧ (t.phase = .idle → t.status ≠ .running))

theorem progress_of_serCase {b z : Word} (h : SerCase b z s t) : Progress s t := by
  cases h with
  | badBuffer => exact .inr ⟨rfl, rfl, fun _ => nofun⟩
  | gaveUp => exact .inl ⟨rfl, rfl⟩
  | waits hwait => exact .inr ⟨rfl, rfl, fun hidle => by simp [hwait] at hidle⟩
  | wrote hfrom hu hwrote _ =>
    obtain ⟨hidle, hcix, -⟩ | ⟨hcix, hres, n, -, hphase⟩ := hwrote.stop
    · exact .inl ⟨hidle, hcix.trans (by rw [hu])⟩
    · exact .inr ⟨hcix.trans (by rw [hu]), hres.trans (by rw [hu]), fun hidle => by simp [hidle] at hphase⟩

theorem afterSend_progress {stage : Nat} (hcix : u.cix = s.cix) (hres : u.res = s.res) :
    Progress s (afterSend i stage u) := by
  obtain ⟨-, h⟩ | ⟨-, h⟩ := afterSend_cases i stage u <;> rw [h]
  · exact .inl ⟨rfl, congrArg (· + 1) hcix⟩
  · exact .inr ⟨hcix, hres, nofun⟩

theorem MainCase.progress (h : MainCase i s t) : Progress s t := by
  cases h with
  | quick v hidle hquick => cases hquick <;> exact .inl ⟨rfl, rfl⟩
  | stops attached status hidle hi hstopped hclean => exact .inr ⟨rfl, rfl, fun _ => hstopped⟩
  | badOperand => exact .inr ⟨rfl, rfl, fun _ => nofun⟩
  | microsOpens | delayOpens | delayReopens | delayYields => exact .inr ⟨rfl, rfl, nofun⟩
  | sampleEnds => exact .inl ⟨rfl, rfl⟩
  | writes hi hcase => exact progress_of_serCase hcase
  | drops hat =>
    obtain ⟨kb, buttons, rfl⟩ := hat.exists_report
    exact afterSend_progress rfl rfl
  | waits hchan hat hstart =>
    obtain ⟨kb, buttons, rfl⟩ := hat.exists_report
    exact .inr ⟨rfl, rfl, nofun⟩
  | @sends e stage u hchan hat hfree hfits =>
    obtain ⟨kb, buttons, rfl⟩ := hat.exists_report
    exact afterSend_progress (by cases e <;> rfl) (by cases e <;> rfl)

/-! ## The interrupt state (R122, R214) -/

/-- The captured value in an open sample, `IE` elsewhere. -/
theorem commandIe_eq (s : State) : commandIe s = (s.phase.openSample.map Sample.saved).getD s.ie := by
  unfold commandIe
  split <;> simp_all [Phase.openSample]

theorem commandIe_of_closed (h : s.phase.openSample = none) : commandIe s = s.ie := by
  rw [commandIe_eq, h]
  rfl

theorem commandIe_of_open {w : Sample} (h : s.phase.openSample = some w) : commandIe s = w.saved := by
  rw [commandIe_eq, h]
  rfl

theorem commandIe_of_serCase {b z : Word} (h : SerCase b z s t) : commandIe t = commandIe s := by
  cases h with
  | badBuffer => rfl
  | gaveUp hclosed => exact (commandIe_of_closed hclosed).symm
  | waits => rfl
  | wrote hfrom hu hwrote _ =>
    have hclosed : s.phase.openSample = none := by
      obtain ⟨hidle, -⟩ | ⟨start, hwait⟩ := hfrom
      · rw [hidle]; rfl
      · rw [hwait]; rfl
    have hended : t.phase.openSample = none := by
      obtain ⟨hidle, -⟩ | ⟨-, -, n, -, hwait⟩ := hwrote.stop
      · rw [hidle]; rfl
      · rw [hwait]; rfl
    rw [commandIe_of_closed hclosed, commandIe_of_closed hended, hwrote.frame]

theorem afterSend_commandIe (i : Instr) (stage : Nat) (u : State) : commandIe (afterSend i stage u) = u.ie := by
  obtain ⟨-, h⟩ | ⟨-, h⟩ := afterSend_cases i stage u <;> rw [h] <;> rfl

theorem MainCase.commandIe (h : MainCase i s t) (hi : changesIe i = false) : commandIe t = commandIe s := by
  cases h with
  | quick v hidle hquick =>
    have hclosed : s.phase.openSample = none := by rw [hidle]; rfl
    rw [commandIe_of_closed hclosed]
    cases hquick with
    | setsIe ie hchanges => exact absurd (hi.symm.trans hchanges) (by decide)
    | _ => rfl
  | stops attached status hidle hchanges => exact absurd (hi.symm.trans hchanges) (by decide)
  | badOperand => rfl
  | microsOpens hi hidle | delayOpens hi hidle => exact (commandIe_of_closed (by rw [hidle]; rfl)).symm
  | delayReopens hi hyield => exact (commandIe_of_closed (by rw [hyield]; rfl)).symm
  | sampleEnds v hopen | delayYields ms start hi hopen hms => exact (commandIe_of_open hopen).symm
  | writes hi hcase => exact commandIe_of_serCase hcase
  | drops hat =>
    rw [afterSend_commandIe, commandIe_of_closed hat.closed, hat.writes]
  | waits hchan hat hstart =>
    rw [commandIe_of_closed hat.closed, hat.writes]
    rfl
  | sends hchan hat hfree hfits =>
    rw [afterSend_commandIe, commandIe_of_closed hat.closed, hidAppended, setInEp_ie, hat.writes]

theorem envStep_commandIe (e : EnvStep) (s : State) : commandIe (envStep e s) = commandIe s := by
  rw [commandIe_eq, commandIe_eq, AgentLaws.envStep_ie]
  obtain h | ⟨h, -, -⟩ := (envStep_case e s).phase <;> rw [h]
  cases s.phase <;> rfl

/-! ## The run status (R45, R221) -/

theorem afterSend_status (i : Instr) (stage : Nat) (u : State) : (afterSend i stage u).status = u.status := by
  obtain ⟨-, h⟩ | ⟨-, h⟩ := afterSend_cases i stage u <;> rw [h] <;> rfl

/-- The two faults a command raises, each with its cause (R222). -/
def FaultCause (i : Instr) (c : Config) (code : FaultCode) : Prop :=
  (code = .badOperand ∧ ∃ idx v, i = .jsSetByte idx v ∧ 12 ≤ idx.toNat) ∨
  (code = .badBuffer ∧ ∃ buf size, i = .serWrite buf size ∧ 0 < size.toNat ∧
    2 ^ c.addrBits < bufAddress c buf + size.toNat)

/-- A step keeps the status, raises a fault of its command with no other effect, or is a terminal command's. -/
theorem MainCase.status (h : MainCase i s t) : t.status = s.status ∨
    (s.phase = .idle ∧ ∃ code, t = raiseFault code s ∧ FaultCause i s.cfg code) ∨
    (s.phase = .idle ∧ t.status ≠ .running ∧ ∀ code, t.status ≠ .faulted code) := by
  cases h with
  | quick v hidle hquick => cases hquick <;> exact .inl rfl
  | stops attached status hidle hi hstopped hclean => exact .inr (.inr ⟨hidle, hstopped, hclean⟩)
  | badOperand hi hidx hidle => exact .inr (.inl ⟨hidle, _, rfl, .inl ⟨rfl, _, _, hi, hidx⟩⟩)
  | writes hi hcase =>
    cases hcase with
    | badBuffer hidle hpos hpast => exact .inr (.inl ⟨hidle, _, rfl, .inr ⟨rfl, _, _, hi, hpos, hpast⟩⟩)
    | wrote hfrom hu hwrote _ => exact .inl (by rw [hwrote.frame, hu])
    | _ => exact .inl rfl
  | drops hat => exact .inl (by rw [afterSend_status, hat.writes])
  | waits hchan hat hstart => exact .inl (by rw [hat.writes])
  | sends hchan hat hfree hfits =>
    exact .inl (by rw [afterSend_status, hidAppended, setInEp_status, hat.writes])
  | _ => exact .inl rfl

/-! ## The order of packets (R67) -/

/-- `q` has the log of `p` and its released packets, with more after them. -/
def Extends (p q : InEndpoint) : Prop := q.hostLog = p.hostLog ∧ ∃ new, q.released = p.released ++ new

theorem Extends.refl (p : InEndpoint) : Extends p p := ⟨rfl, [], (List.append_nil _).symm⟩

theorem extends_release (p : InEndpoint) : Extends p p.release := ⟨release_hostLog p, _, release_released p⟩

theorem extends_hidAppended (e f : InEp) (report : List Byte) (s : State) :
    Extends (s.inEp f) ((hidAppended e report s).inEp f) := by
  by_cases hf : f = e
  · subst hf
    rw [hidAppended, inEp_setInEp]
    exact extends_release ((s.inEp f).append report)
  · rw [hidAppended, inEp_setInEp_ne e f _ _ hf]
    cases f <;> exact .refl _

theorem inEp_afterSend (i : Instr) (stage : Nat) (s : State) (f : InEp) : (afterSend i stage s).inEp f = s.inEp f := by
  obtain ⟨-, h⟩ | ⟨-, h⟩ := afterSend_cases i stage s <;> rw [h]
  · exact inEp_complete _ _ _
  · exact inEp_yieldAfter _ _ _

theorem SendAt.inEp {stage : Nat} (h : SendAt i s stage u) (f : InEp) : u.inEp f = s.inEp f := by
  obtain ⟨kb, buttons, rfl⟩ := h.exists_report
  cases f <;> rfl

/-- SER_WRITE touches no endpoint but its own. -/
theorem inEp_of_serCase {b z : Word} (h : SerCase b z s t) {f : InEp} (hf : f ≠ .cdcTx) : t.inEp f = s.inEp f := by
  rw [h.writes]
  cases f with
  | cdcTx => exact absurd rfl hf
  | _ => rfl

theorem extends_of_serCase {b z : Word} (h : SerCase b z s t) (f : InEp) : Extends (s.inEp f) (t.inEp f) := by
  by_cases hf : f = .cdcTx
  · subst hf
    cases h with
    | wrote hfrom hu hwrote _ =>
      obtain ⟨new, hnew⟩ := hwrote.packets
      exact ⟨hwrote.log.trans (by rw [hu]; rfl), new, hnew.trans (by rw [hu]; rfl)⟩
    | _ => exact .refl _
  · rw [inEp_of_serCase h hf]
    exact .refl _

theorem MainCase.extends (h : MainCase i s t) (f : InEp) : Extends (s.inEp f) (t.inEp f) := by
  cases h with
  | quick v hidle hquick =>
    rw [inEp_complete]
    cases hquick with
    | releases =>
      cases f with
      | cdcTx => exact extends_release _
      | _ => exact .refl _
    | _ => cases f <;> exact .refl _
  | writes hi hcase => exact extends_of_serCase hcase f
  | drops hat =>
    rw [inEp_afterSend, hat.inEp f]
    exact .refl _
  | waits hchan hat hstart =>
    rw [← hat.inEp f]
    cases f <;> exact .refl _
  | sends hchan hat hfree hfits =>
    rw [inEp_afterSend, ← hat.inEp f]
    exact extends_hidAppended ..
  | _ => cases f <;> exact .refl _

end

/-! ## A step of the machine -/

/-- A MAIN step that is taken: boot, a command that does not decode, a command started, a command resumed. -/
inductive MainStepCase (s : State) : State → Prop
  | boots (hboot : s.booted = false) : MainStepCase s (boot s)
  | reserved (c : Command) (hidle : s.phase = .idle) : MainStepCase s (raiseFault .illegalCmd (latch c s))
  | starts {c : Command} {i : Instr} {t : State} (hboot : s.booted = true) (hfetch : fetch s = some c)
      (hdecode : decode c = .ok i) (hidle : s.phase = .idle) (hcase : MainCase i (latch c s) t) : MainStepCase s t
  | resumes {c : Command} {i : Instr} {t : State} (hboot : s.booted = true) (hfetch : fetch s = some c)
      (hdecode : decode c = .ok i) (hbusy : s.phase ≠ .idle) (hcase : MainCase i s t) : MainStepCase s t

theorem runCommand_case {c : Command} {s t : State} (hboot : s.booted = true) (hfetch : fetch s = some c)
    (hnext : runCommand c s = .next t) : MainStepCase s t := by
  unfold runCommand at hnext
  split at hnext
  · next hidle =>
    split at hnext
    · next i hdecode => exact .starts hboot hfetch hdecode hidle (mainCase_of_exec hnext)
    · obtain rfl : raiseFault .illegalCmd (latch c s) = t := by simpa using hnext
      exact .reserved c hidle
  · next hbusy =>
    split at hnext
    · next i hdecode => exact .resumes hboot hfetch hdecode hbusy (mainCase_of_exec hnext)
    · cases hnext

theorem mainStep_case {s t : State} (hnext : mainStep s = .next t) : MainStepCase s t := by
  unfold mainStep at hnext
  split at hnext
  · split at hnext
    · next hboot =>
      split at hnext
      · next c hfetch => exact runCommand_case hboot hfetch hnext
      · cases hnext
    · next hboot =>
      obtain rfl : boot s = t := by simpa using hnext
      exact .boots (by simpa using hboot)
  · cases hnext

/-- A step that a schedule names: nothing, MAIN's, or another agent's. -/
theorem stepBy_case {a : AgentStep} {s t : State} (hnext : stepBy a s = .next t) :
    t = s ∨ MainStepCase s t ∨ ∃ e, a = .env e ∧ t = envStep e s := by
  cases a with
  | env e =>
    obtain rfl : envStep e s = t := by simpa [stepBy] using hnext
    exact .inr (.inr ⟨e, rfl, rfl⟩)
  | main =>
    simp only [stepBy, mainScheduled] at hnext
    split at hnext
    · exact .inr (.inl (mainStep_case hnext))
    · exact .inl (by simpa using hnext.symm)

/-- A step is MAIN's, or that of the agent the schedule names, once its entry is taken. -/
theorem step_eq (s : State) : (s.sched = [] ∧ step s = mainStep s) ∨
    ∃ a rest, s.sched = a :: rest ∧ step s = stepBy a { s with sched := rest } := by
  match hsched : s.sched with
  | [] => exact .inl ⟨rfl, step_of_nil hsched⟩
  | .main :: rest => exact .inr ⟨_, _, rfl, step_of_main hsched⟩
  | .env e :: rest => exact .inr ⟨_, _, rfl, step_of_env hsched⟩

/-- No MAIN step writes the configuration, the stream, caller memory or the clock. -/
theorem MainStepCase.keeps {s t : State} (h : MainStepCase s t) :
    (t.mem = s.mem ∧ t.prog = s.prog ∧ t.cfg = s.cfg) ∧
    (t.tcnt = s.tcnt ∧ t.tov = s.tov ∧ t.microsCount = s.microsCount) := by
  cases h with
  | boots | reserved => exact ⟨⟨rfl, rfl, rfl⟩, rfl, rfl, rfl⟩
  | starts hboot hfetch hdecode hidle hcase =>
    rw [hcase.mainWrites]
    exact ⟨⟨rfl, rfl, rfl⟩, rfl, rfl, rfl⟩
  | resumes hboot hfetch hdecode hbusy hcase =>
    rw [hcase.mainWrites]
    exact ⟨⟨rfl, rfl, rfl⟩, rfl, rfl, rfl⟩

/-! ## Caller memory (R61) -/

theorem read_eq_zero_of_lt {m : Memory} {a : Nat} (h : ∀ c ∈ m, a < c.1) : m.read a = 0 := by
  induction m with
  | nil => rfl
  | cons c m ih =>
    have hne : a ≠ c.1 := Nat.ne_of_lt (h c List.mem_cons_self)
    rw [Memory.read, if_neg hne]
    exact ih fun d hd => h d (List.mem_cons_of_mem _ hd)

theorem wf_tail {c : Host.Cell} {m : Memory} (h : Memory.wf (c :: m)) : Memory.wf m ∧ ∀ d ∈ m, c.1 < d.1 := by
  obtain ⟨hsorted, hnonzero⟩ := h
  obtain ⟨hhead, htail⟩ := List.pairwise_cons.1 hsorted
  exact ⟨⟨htail, fun d hd => hnonzero d (List.mem_cons_of_mem _ hd)⟩, hhead⟩

theorem read_write_same {m : Memory} (a : Nat) (v : Byte) (h : Memory.wf m) : (m.write a v).read a = v := by
  induction m with
  | nil =>
    unfold Memory.write
    split
    · next hv => rw [hv]; rfl
    · simp [Memory.read]
  | cons c m ih =>
    obtain ⟨k, w⟩ := c
    obtain ⟨hwf, hrising⟩ := wf_tail h
    unfold Memory.write
    split
    · next hlt =>
      split
      · next hv =>
        rw [hv]
        exact read_eq_zero_of_lt fun d hd => (List.mem_cons.1 hd).elim (fun hd => hd ▸ hlt)
          fun hd => hlt.trans (hrising d hd)
      · simp [Memory.read]
    · split
      · next heq =>
        subst heq
        split
        · next hv =>
          rw [hv]
          exact read_eq_zero_of_lt hrising
        · simp [Memory.read]
      · next hne => rw [Memory.read, if_neg hne, ih hwf]

theorem read_write_ne {m : Memory} {a b : Nat} (v : Byte) (hb : b ≠ a) : (m.write a v).read b = m.read b := by
  induction m with
  | nil =>
    unfold Memory.write
    split <;> simp [Memory.read, hb]
  | cons c m ih =>
    obtain ⟨k, w⟩ := c
    unfold Memory.write
    split
    · split <;> simp [Memory.read, hb]
    · split
      · next heq =>
        subst heq
        split <;> simp [Memory.read, hb]
      · simp [Memory.read, ih]

/-! ## The clock (R100, R108) -/

/-- One more count: on the last count of a tick the counter wraps and the whole ticks grow by one. -/
theorem count_succ {m n : Nat} (hm : 0 < m) : (n % m = m - 1 → (n + 1) % m = 0 ∧ (n + 1) / m = n / m + 1) ∧
    (n % m ≠ m - 1 → (n + 1) % m = n % m + 1 ∧ (n + 1) / m = n / m) := by
  have hmod := Nat.mod_lt n hm
  have hsplit := Nat.div_add_mod n m
  refine ⟨fun hlast => ?_, fun hmore => ?_⟩
  · have hn : n + 1 = m * (n / m + 1) := by
      rw [Nat.mul_add, Nat.mul_one]
      omega
    rw [hn, Nat.mul_mod_right, Nat.mul_div_cancel_left _ hm]
    exact ⟨rfl, rfl⟩
  · have hn : n + 1 = n % m + 1 + m * (n / m) := by omega
    have hlt : n % m + 1 < m := by omega
    constructor
    · rw [hn, Nat.add_mul_mod_self_left, Nat.mod_eq_of_lt hlt]
    · conv_lhs => rw [hn]
      rw [Nat.add_mul_div_left _ _ hm, Nat.div_eq_of_lt hlt, Nat.zero_add]

/-- A step of another agent keeps the count of TIMER_HW steps, if the service bound holds before it. -/
theorem clockTracks_of_envCase {s t : State} {e : EnvStep} {n : Nat} (h : EnvCase s e t) (htracks : ClockTracks n s)
    (hbound : TickServiceBound s) : ClockTracks (n + timerCount (.env e) s) t := by
  cases h with
  | timerHw hon =>
    obtain ⟨htcnt, hmicros⟩ := htracks
    obtain ⟨hlast, hmore⟩ := count_succ (n := n) (Nat.two_pow_pos s.cfg.tcntBits)
    have hone : timerCount (.env .timerHw) s = 1 := if_pos hon
    rw [hone]
    by_cases hmax : s.tcnt = s.cfg.tcntMax
    · obtain ⟨hmod, hdiv⟩ := hlast (htcnt.symm.trans hmax)
      have hclear : ¬ s.tov = true := fun hset => hbound ⟨hset, hmax⟩
      rw [if_neg hclear, add_zero] at hmicros
      refine ⟨(if_pos hmax).trans hmod.symm, ?_⟩
      simp only [if_pos hmax, if_true, hmicros, hdiv, Nat.add_mul, Nat.one_mul, BitVec.ofNat_add]
    · obtain ⟨hmod, hdiv⟩ := hmore fun hlast => hmax (htcnt.trans hlast)
      refine ⟨(if_neg hmax).trans (by rw [htcnt, hmod]), ?_⟩
      simp only [if_neg hmax, hmicros, hdiv]
  | timerIsr hon =>
    obtain ⟨htcnt, hmicros⟩ := htracks
    obtain ⟨-, -, hset⟩ := (ClockLaws.timerIsrEnabled_iff s).1 hon
    rw [if_pos hset] at hmicros
    show ClockTracks n _
    exact ⟨htcnt, by simpa using hmicros⟩
  | disabled e hoff =>
    have hzero : timerCount (.env e) s = 0 := by
      cases e with
      | timerHw => exact if_neg (by simpa [envEnabled] using hoff)
      | _ => rfl
    rw [hzero]
    exact htracks
  | link event sel => cases event <;> exact htracks
  | hostPoll p => cases p <;> exact htracks
  | _ => exact htracks

/-! ## The obligations on what steps keep -/

/-- Settles O9: `MainCase.progress`. -/
theorem cixAdvancesAtCompletion : Obligations.CixAdvancesAtCompletion :=
  fun _ _ _ hnext => (mainCase_of_exec hnext).progress

/-- Settles O10: no agent writes these fields; memory by induction on its list, which a write keeps in order. -/
theorem callerMemory : Obligations.CallerMemory := by
  refine ⟨fun s t hnext => ?_, fun m a v hwf => ⟨Memory.write_wf a v hwf, read_write_same a v hwf, fun b hb =>
    read_write_ne v hb⟩⟩
  obtain ⟨-, hstep⟩ | ⟨a, rest, -, hstep⟩ := step_eq s <;> rw [hstep] at hnext
  · exact (mainStep_case hnext).keeps.1
  · obtain rfl | hmain | ⟨e, -, rfl⟩ := stepBy_case hnext
    · exact ⟨rfl, rfl, rfl⟩
    · exact hmain.keeps.1
    · exact ⟨AgentLaws.envStep_mem .., AgentLaws.envStep_prog .., AgentLaws.envStep_cfg ..⟩

/-- Settles O17: MAIN does not touch the clock; the other agents by `clockTracks_of_envCase`. -/
theorem noTickLostUnderBound : Obligations.NoTickLostUnderBound := by
  refine ⟨fun c d => ⟨(Nat.zero_mod _).symm, by simp [State.resetWith]⟩, fun a s t n _ htracks hbound hnext => ?_⟩
  cases a with
  | main =>
    obtain rfl | hmain | ⟨e, he, -⟩ := stepBy_case hnext
    · exact htracks
    · obtain ⟨⟨-, -, hcfg⟩, htcnt, htov, hmicros⟩ := hmain.keeps
      obtain ⟨hcount, hticks⟩ := htracks
      exact ⟨by rw [htcnt, hcfg]; exact hcount, by rw [hmicros, htov, hcfg]; exact hticks⟩
    · cases he
  | env e =>
    obtain rfl : envStep e s = t := by simpa [stepBy] using hnext
    exact clockTracks_of_envCase (envStep_case e s) htracks hbound

/-- Settles O49: `MainCase.commandIe`; another agent neither writes `IE` nor the captured value. -/
theorem commandsRestoreIe : Obligations.CommandsRestoreIe :=
  ⟨fun _ _ _ hi hnext => (mainCase_of_exec hnext).commandIe hi, envStep_commandIe⟩

/-- Settles O50: of the three ways of `MainCase.status` only a raised fault leaves a running block faulted. -/
theorem faultsArePrecise : Obligations.FaultsArePrecise := by
  intro i s t code hrun hnext hfault
  obtain hkept | ⟨-, code', rfl, hcause⟩ | ⟨-, -, hclean⟩ := (mainCase_of_exec hnext).status
  · rw [hkept, hrun] at hfault
    cases hfault
  · obtain rfl : code' = code := RunStatus.faulted.inj hfault
    exact ⟨rfl, hcause⟩
  · exact absurd hfault (hclean code)

/-- Settles O56: MAIN by `MainCase.extends`, a poll moves the oldest packet, the other agents by `EnvCase.released`. -/
theorem packetsAreFifo : Obligations.PacketsAreFifo := by
  refine ⟨fun i s t e hnext => (mainCase_of_exec hnext).extends e, fun p e s => ?_,
    fun st e s hpoll => (envStep_case st s).released hpoll e⟩
  have hcase := envStep_case (.hostPoll p) s
  generalize envStep (.hostPoll p) s = t at hcase
  cases hcase with
  | disabled => exact ⟨rfl, [], (List.append_nil _).symm, Nat.zero_le _⟩
  | hostPoll p =>
    rw [inEp_poll]
    split
    · exact ⟨poll_packets _, poll_hostLog _⟩
    · exact ⟨rfl, [], (List.append_nil _).symm, Nat.zero_le _⟩

end Sys2Proof.Machine.MainLaws
end

section
/-! SUPPORT. The invariants of R48 as one predicate of the block: every step of MAIN and of the other agents keeps
`BlockInv`, from a state that meets it no step stops but where the spec gives none, and on a fair run the timer goes on. -/

namespace Sys2Proof.Machine.InvariantLaws

open SerialLaws (SerCase TxOk)
open AgentLaws (EnvCase envStep_case inEp_poll)
open MainLaws

/-! ## The endpoints (R48 (b) to (f), (h)) -/

/-- The HID endpoints: each meets its part of R48, and no bank is being filled between steps. -/
def HidOk (s : State) : Prop := ∀ e, e ≠ .cdcTx → EndpointOk s.cfg e (s.inEp e) ∧ (s.inEp e).cur = []

theorem txOk_of_blockInv {s : State} (h : BlockInv s) : TxOk s := ⟨h.endpoints .cdcTx, h.cdcPartial, h.deadline⟩

theorem hidOk_of_blockInv {s : State} (h : BlockInv s) : HidOk s := by
  obtain ⟨hkb, hms, hjs⟩ := h.hidEmpty
  intro e he
  refine ⟨h.endpoints e, ?_⟩
  cases e with
  | cdcTx => exact absurd rfl he
  | kb => exact hkb
  | ms => exact hms
  | js => exact hjs

theorem endpointOk_of_channels {s : State} (htx : TxOk s) (hhid : HidOk s) (e : InEp) :
    EndpointOk s.cfg e (s.inEp e) := by
  by_cases he : e = .cdcTx
  · subst he
    exact htx.1
  · exact (hhid e he).1

theorem hidEmpty_of_hidOk {s : State} (h : HidOk s) : s.kbEp.cur = [] ∧ s.msEp.cur = [] ∧ s.jsEp.cur = [] :=
  ⟨(h .kb nofun).2, (h .ms nofun).2, (h .js nofun).2⟩

/-- A release of a whole packet, or of nothing. -/
theorem endpointOk_release {c : Config} {e : InEp} {p : InEndpoint} (h : EndpointOk c e p)
    (hpacket : p.cur ≠ [] → PacketOk c e p.cur) : EndpointOk c e p.release := by
  by_cases hcur : p.cur = []
  · simpa [InEndpoint.release, hcur] using h
  · rw [InEndpoint.release, if_neg hcur]
    refine { h with
      curFits := Nat.zero_le _, releasedFits := ?_, roomWhileFilling := fun hne => absurd rfl hne
      releasedPackets := fun q hq => ?_ }
    · exact (List.length_append ..).trans_le (h.roomWhileFilling hcur)
    · obtain hq | hq := List.mem_append.1 hq
      · exact h.releasedPackets q hq
      · rw [List.mem_singleton.1 hq]
        exact hpacket hcur

theorem txOk_release {s : State} (sel : Endpoint) (h : TxOk s) :
    TxOk { s with sel := sel, cdcTx := s.cdcTx.release, flushRemaining := none } := by
  obtain ⟨hep, hpartial, -⟩ := h
  have hpacket : s.cdcTx.cur ≠ [] → PacketOk s.cfg .cdcTx s.cdcTx.cur :=
    fun hne => ⟨List.length_pos_of_ne_nil hne, Nat.le_of_lt hpartial⟩
  refine ⟨endpointOk_release hep hpacket, ?_, nofun⟩
  simpa using Nat.zero_lt_of_lt hpartial

/-- An empty endpoint that is given a whole report and released. -/
theorem endpointOk_send {c : Config} {e : InEp} {p : InEndpoint} {report : List Byte} (h : EndpointOk c e p)
    (hcur : p.cur = []) (hbank : p.released.length < c.banks.at e) (hfits : report.length ≤ c.size.at e)
    (hreport : PacketOk c e report) : EndpointOk c e (p.append report).release := by
  have happend : (p.append report).cur = report := by rw [append_cur, hcur, List.nil_append]
  refine endpointOk_release { h with curFits := ?_, roomWhileFilling := fun _ => hbank } fun _ => ?_
  · rw [happend]
    exact hfits
  · rw [happend]
    exact hreport

/-- A host's poll takes the oldest packet. -/
theorem endpointOk_poll {c : Config} {e : InEp} {p : InEndpoint} (h : EndpointOk c e p) : EndpointOk c e p.poll := by
  unfold InEndpoint.poll
  split
  · exact h
  · next packet rest hreleased =>
    have hlen : rest.length ≤ p.released.length := by simp [hreleased]
    refine { h with
      releasedFits := hlen.trans h.releasedFits
      roomWhileFilling := fun hne => hlen.trans_lt (h.roomWhileFilling hne)
      releasedPackets := fun q hq => h.releasedPackets q (hreleased ▸ List.mem_cons_of_mem _ hq)
      takenPackets := fun q hq => ?_ }
    obtain hq | hq := List.mem_append.1 hq
    · exact h.takenPackets q hq
    · rw [List.mem_singleton.1 hq]
      exact h.releasedPackets packet (hreleased ▸ List.mem_cons_self)

theorem endpointOk_cleared {c : Config} {e : InEp} {p : InEndpoint} (h : EndpointOk c e p) :
    EndpointOk c e { p with cur := [], released := [] } :=
  { h with
    curFits := Nat.zero_le _, releasedFits := Nat.zero_le _, roomWhileFilling := fun hne => absurd rfl hne
    releasedPackets := nofun }

/-! ## The report of a HID command (R201) -/

section

variable {i : Instr} {e : InEp} {s t u : State}

theorem ne_cdcTx_of_hidChannel (hchan : hidChannel i = some e) : e ≠ .cdcTx := by
  cases i <;> cases hchan <;> nofun

theorem hidReport_packetOk (c : Config) (hchan : hidChannel i = some e) (s : State) :
    PacketOk c e (hidReport i e s) := by
  cases i <;> cases hchan <;>
    simp [PacketOk, hidReport, kbReport, jsReport, moveReport, msReport, msButtonReport, kbReportSize, jsReportSize,
      msReportSize]

/-- A well-formed configuration gives every report its room. -/
theorem hidReport_fits {c : Config} (hwf : c.WF) (hchan : hidChannel i = some e) (s : State) :
    (hidReport i e s).length ≤ c.size.at e := by
  obtain ⟨-, -, -, ⟨hkb, hms, hjs⟩, -⟩ := hwf
  have hpacket := hidReport_packetOk c hchan s
  cases e with
  | cdcTx => exact absurd rfl (ne_cdcTx_of_hidChannel hchan)
  | kb => exact (Nat.le_of_eq hpacket).trans hkb
  | ms => exact (Nat.le_of_eq hpacket).trans hms
  | js => exact (Nat.le_of_eq hpacket).trans hjs

/-! ## The phase (R21, R22) -/

theorem currentInstr_eq_some_iff : currentInstr s = some i ↔ ∃ c, fetch s = some c ∧ decode c = .ok i := by
  unfold currentInstr
  cases fetch s with
  | none => simp
  | some c => cases hdecode : decode c <;> simp [hdecode]

theorem phaseOk_of_idle (hidle : s.phase = .idle) : PhaseOk s := by
  unfold PhaseOk
  rw [hidle]
  trivial

/-- A phase of the invariant is one of the current command's. -/
theorem ownPhase_of_phaseOk (hphase : PhaseOk s) (hcur : currentInstr s = some i) : OwnPhase i s.phase := by
  unfold PhaseOk at hphase
  rw [hcur] at hphase
  cases hp : s.phase with
  | idle => trivial
  | microsWindow w =>
    rw [hp] at hphase
    exact Option.some.inj hphase.1
  | delayFirst w ms =>
    rw [hp] at hphase
    exact ⟨ms, Option.some.inj hphase.1⟩
  | delayYield ms start | delayWindow w ms start =>
    rw [hp] at hphase
    obtain ⟨⟨total, htotal⟩, -⟩ := hphase
    exact ⟨total, Option.some.inj htotal⟩
  | serWait buf size count start =>
    rw [hp] at hphase
    obtain ⟨⟨b, z, hwrite, -⟩, -⟩ := hphase
    exact ⟨b, z, Option.some.inj hwrite⟩
  | hidWait stage start =>
    rw [hp] at hphase
    obtain ⟨⟨j, hj, hstage⟩, -⟩ := hphase
    exact Option.some.inj hj ▸ hstage
  | hidYield stage =>
    rw [hp] at hphase
    obtain ⟨j, hj, hstage⟩ := hphase
    exact Option.some.inj hj ▸ hstage

/-- A busy block has a current command. -/
theorem currentInstr_of_busy (hphase : PhaseOk s) (hbusy : s.phase ≠ .idle) : ∃ i, currentInstr s = some i := by
  unfold PhaseOk at hphase
  split at hphase
  · contradiction
  · exact ⟨_, hphase.1⟩
  · exact ⟨_, hphase.1⟩
  · obtain ⟨⟨total, h⟩, -⟩ := hphase
    exact ⟨_, h⟩
  · obtain ⟨⟨total, h⟩, -⟩ := hphase
    exact ⟨_, h⟩
  · obtain ⟨⟨b, z, h, -⟩, -⟩ := hphase
    exact ⟨_, h⟩
  · obtain ⟨⟨j, h, -⟩, -⟩ := hphase
    exact ⟨_, h⟩
  · obtain ⟨j, h, -⟩ := hphase
    exact ⟨_, h⟩

theorem phaseOk_afterSend {stage : Nat} (hcur : currentInstr u = some i) (lo : 1 ≤ stage) (hi : stage ≤ sendCount i) :
    PhaseOk (afterSend i stage u) := by
  obtain ⟨-, h⟩ | ⟨hne, h⟩ := afterSend_cases i stage u <;> rw [h]
  · exact phaseOk_of_idle rfl
  · exact ⟨i, hcur, lo, Nat.lt_of_le_of_ne hi hne⟩

/-- A step of SER_WRITE ends idle, or at the yield of a wait with what is left of its buffer. -/
theorem phaseOk_of_serCase {b z : Word} (hinv : BlockInv s) (hcur : currentInstr s = some (.serWrite b z))
    (hcase : SerCase b z s t) : PhaseOk t := by
  have hphase := hinv.phase
  cases hcase with
  | badBuffer hidle => exact phaseOk_of_idle hidle
  | gaveUp => exact phaseOk_of_idle rfl
  | waits => exact hphase
  | @wrote buf size count u _ hfrom hu hwrote _ =>
    obtain ⟨hidle, -⟩ | ⟨hcix, -, n, hn, hwait⟩ := hwrote.stop
    · exact phaseOk_of_idle hidle
    have hcfg : t.cfg = s.cfg := by rw [hwrote.frame, hu]
    have hcur' : currentInstr t = some (.serWrite b z) := by
      have hfetch : fetch t = fetch s := by rw [fetch, hcix, hwrote.frame, hu]; rfl
      rw [currentInstr, hfetch]
      exact hcur
    have hlocals : (buf = bufAddress s.cfg b + count ∧ count + size = z.toNat) ∧ buf + size ≤ 2 ^ s.cfg.addrBits := by
      obtain ⟨-, rfl, rfl, rfl, hfits⟩ | ⟨start, hwas⟩ := hfrom
      · exact ⟨⟨rfl, Nat.zero_add _⟩, hfits.resolve_left (Nat.ne_of_gt (Nat.zero_lt_of_lt hn))⟩
      · rw [PhaseOk, hwas] at hphase
        obtain ⟨⟨b', z', hcur'', hbuf, hcount⟩, -, hfits, -⟩ := hphase
        obtain ⟨rfl, rfl⟩ := Instr.serWrite.inj (Option.some.inj (hcur.symm.trans hcur''))
        exact ⟨⟨hbuf, hcount⟩, hfits⟩
    obtain ⟨⟨hbuf, hcount⟩, hfits⟩ := hlocals
    have hframe : u.frame < 2 ^ s.cfg.frameBits := by
      rw [hu]
      exact hinv.frame
    rw [PhaseOk, hwait, hcfg]
    exact ⟨⟨b, z, hcur', by omega, by omega⟩, by omega, by omega, hframe⟩

/-- A MAIN step of the current command ends idle or at a phase of that command. -/
theorem phaseOk_of_mainCase (hinv : BlockInv s) (hcur : currentInstr s = some i) (hcase : MainCase i s t) :
    PhaseOk t := by
  have hphase := hinv.phase
  cases hcase with
  | quick | sampleEnds => exact phaseOk_of_idle rfl
  | stops _ _ hidle => exact phaseOk_of_idle hidle
  | badOperand _ _ hidle => exact phaseOk_of_idle hidle
  | microsOpens hi hidle => exact ⟨hi ▸ hcur, rfl, hinv.tcnt⟩
  | delayOpens hi hidle => exact ⟨hi ▸ hcur, rfl, hinv.tcnt⟩
  | delayReopens hi hyield =>
    rw [PhaseOk, hyield] at hphase
    exact ⟨⟨_, hi ▸ hcur⟩, hphase.2, rfl, hinv.tcnt⟩
  | delayYields ms start hi hopen hms => exact ⟨⟨_, hi ▸ hcur⟩, hms⟩
  | writes hi hcase => exact phaseOk_of_serCase hinv (hi ▸ hcur) hcase
  | drops hat =>
    obtain ⟨kb, buttons, rfl⟩ := hat.exists_report
    exact phaseOk_afterSend hcur hat.lo hat.hi
  | waits hchan hat hstart =>
    obtain ⟨kb, buttons, rfl⟩ := hat.exists_report
    refine ⟨⟨i, hcur, hat.lo, hat.hi⟩, ?_⟩
    obtain rfl | hwas := hstart
    · exact hinv.frame
    · rw [PhaseOk, hwas] at hphase
      exact hphase.2
  | @sends e stage u hchan hat hfree hfits =>
    obtain ⟨kb, buttons, rfl⟩ := hat.exists_report
    refine phaseOk_afterSend ?_ hat.lo hat.hi
    cases e <;> exact hcur

/-! ## A MAIN step -/

theorem txOk_of_serCase {b z : Word} (hinv : BlockInv s) (hcase : SerCase b z s t) : TxOk t := by
  have htx := txOk_of_blockInv hinv
  cases hcase with
  | wrote hfrom hu hwrote hkeeps =>
    obtain ⟨-, -, -, -, -, -, -, -, hflush⟩ := hinv.config
    refine hkeeps ?_ hflush htx
    obtain ⟨hidle, -⟩ | ⟨start, hwas⟩ := hfrom
    · exact .inl hidle
    · have hphase := hinv.phase
      rw [PhaseOk, hwas] at hphase
      exact .inr hphase.2.1
  | _ => exact htx

/-- A HID command's send and what follows it write neither the CDC endpoint nor the reports. -/
theorem afterSend_writes (i : Instr) (stage : Nat) (u : State) : afterSend i stage u = { u with
    res := (afterSend i stage u).res, phase := (afterSend i stage u).phase, cix := (afterSend i stage u).cix } := by
  obtain ⟨-, h⟩ | ⟨-, h⟩ := afterSend_cases i stage u <;> rw [h] <;> rfl

theorem hidAppended_writes (he : e ≠ .cdcTx) (report : List Byte) (u : State) : hidAppended e report u = { u with
    sel := (hidAppended e report u).sel, kbEp := (hidAppended e report u).kbEp
    msEp := (hidAppended e report u).msEp, jsEp := (hidAppended e report u).jsEp } := by
  cases e with
  | cdcTx => exact absurd rfl he
  | _ => rfl

theorem txOk_of_mainCase (hinv : BlockInv s) (hcase : MainCase i s t) : TxOk t := by
  have htx := txOk_of_blockInv hinv
  cases hcase with
  | quick v hidle hquick =>
    cases hquick with
    | releases => exact txOk_release .cdcTx htx
    | _ => exact htx
  | writes hi hcase => exact txOk_of_serCase hinv hcase
  | drops hat =>
    obtain ⟨kb, buttons, rfl⟩ := hat.exists_report
    rw [afterSend_writes]
    exact htx
  | waits hchan hat hstart =>
    obtain ⟨kb, buttons, rfl⟩ := hat.exists_report
    exact htx
  | sends hchan hat hfree hfits =>
    obtain ⟨kb, buttons, rfl⟩ := hat.exists_report
    rw [afterSend_writes, hidAppended_writes (ne_cdcTx_of_hidChannel hchan)]
    exact htx
  | _ => exact htx

/-- What leaves the HID endpoints leaves `HidOk`. -/
theorem HidOk.congr (h : HidOk s) (hcfg : t.cfg = s.cfg) (hep : ∀ f, f ≠ .cdcTx → t.inEp f = s.inEp f) : HidOk t := by
  intro f hf
  rw [hcfg, hep f hf]
  exact h f hf

/-- A report sent on its endpoint. -/
theorem hidOk_hidAppended (hwf : u.cfg.WF) (hchan : hidChannel i = some e) (h : HidOk u)
    (hfree : writable e u = true) : HidOk (hidAppended e (hidReport i e u) u) := by
  have hcfg : (hidAppended e (hidReport i e u) u).cfg = u.cfg := setInEp_cfg ..
  intro f hf
  rw [hcfg]
  by_cases hfe : f = e
  · subst hfe
    obtain ⟨hep, hcur⟩ := h f hf
    rw [hidAppended, inEp_setInEp]
    exact ⟨endpointOk_send hep hcur (writable_iff.1 hfree).1 (hidReport_fits hwf hchan u)
      (hidReport_packetOk u.cfg hchan u), release_cur _⟩
  · rw [hidAppended, inEp_setInEp_ne e f _ _ hfe]
    exact h f hf

theorem hidOk_of_mainCase (hinv : BlockInv s) (hcase : MainCase i s t) : HidOk t := by
  have hhid := hidOk_of_blockInv hinv
  cases hcase with
  | quick v hidle hquick =>
    cases hquick <;> exact hhid.congr rfl fun f hf => by cases f with
      | cdcTx => exact absurd rfl hf
      | _ => rfl
  | writes hi hcase =>
    exact hhid.congr (by rw [hcase.writes]) fun f hf => inEp_of_serCase hcase hf
  | @drops stage u hat =>
    refine hhid.congr ?_ fun f _ => (inEp_afterSend ..).trans (hat.inEp f)
    rw [afterSend_mainWrites i stage u, hat.writes]
  | waits hchan hat hstart =>
    obtain ⟨kb, buttons, rfl⟩ := hat.exists_report
    exact hhid.congr rfl fun f _ => by cases f <;> rfl
  | @sends e stage u hchan hat hfree hfits =>
    have hu : HidOk u := hhid.congr (by rw [hat.writes]) fun f _ => hat.inEp f
    have hsent := hidOk_hidAppended (by rw [hat.writes]; exact hinv.config) hchan hu hfree
    exact hsent.congr (by rw [afterSend_mainWrites i stage]) fun f _ => inEp_afterSend ..
  | _ => exact hhid.congr rfl fun f _ => by cases f <;> rfl

/-- R48 (b) of the OUT endpoint. -/
def RxOk (s : State) : Prop :=
  s.rx.length ≤ s.cfg.banks.cdcRx ∧ ∀ bank ∈ s.rx, bank.length ≤ s.cfg.size.cdcRx

/-- R48 (g), and the reserved byte of the keyboard report. -/
def ReportsOk (s : State) : Prop := buttonsOk s.msButtons = true ∧ s.kb[1] = 0

theorem rxOk_of_mainCase (h : RxOk s) (hcase : MainCase i s t) : RxOk t := by
  cases hcase with
  | quick v hidle hquick =>
    cases hquick with
    | receives rest held hlen hbanks =>
      obtain ⟨hfits, hold⟩ := h
      refine ⟨hlen.trans hfits, fun bank hbank => ?_⟩
      obtain ⟨old, hmem, hle⟩ := hbanks bank hbank
      exact hle.trans (hold old hmem)
    | _ => exact h
  | writes hi hcase =>
    rw [hcase.writes]
    exact h
  | drops hat =>
    rw [afterSend_writes, hat.writes]
    exact h
  | waits hchan hat hstart =>
    rw [hat.writes]
    exact h
  | sends hchan hat hfree hfits =>
    rw [afterSend_writes, hidAppended_writes (ne_cdcTx_of_hidChannel hchan), hat.writes]
    exact h
  | _ => exact h

theorem reportsOk_of_sendAt {stage : Nat} (hwf : i.wf = true) (h : ReportsOk s) (hat : SendAt i s stage u) :
    ReportsOk u :=
  ⟨hat.buttons hwf h.1, hat.reserved h.2⟩

theorem reportsOk_of_mainCase (hwf : i.wf = true) (h : ReportsOk s) (hcase : MainCase i s t) : ReportsOk t := by
  cases hcase with
  | quick v hidle hquick =>
    cases hquick with
    | setsKey k v hk =>
      refine ⟨h.1, ?_⟩
      have hne : k.val ≠ 1 := fun heq => hk (Fin.ext heq)
      exact (Vector.getElem_set_ne k.isLt (by decide) hne).trans h.2
    | _ => exact h
  | writes hi hcase =>
    rw [hcase.writes]
    exact h
  | drops hat =>
    have hu := reportsOk_of_sendAt hwf h hat
    rw [afterSend_writes]
    exact hu
  | waits hchan hat hstart =>
    have hu := reportsOk_of_sendAt hwf h hat
    exact hu
  | sends hchan hat hfree hfits =>
    have hu := reportsOk_of_sendAt hwf h hat
    rw [afterSend_writes, hidAppended_writes (ne_cdcTx_of_hidChannel hchan)]
    exact hu
  | _ => exact h

/-- A command that stays busy stays latched. -/
theorem latched_of_mainCase (hboot : s.booted = true) (hfetch : fetch s = some ⟨s.cmd, s.arg0, s.arg1⟩)
    (hcase : MainCase i s t) (hbusy : t.phase ≠ .idle) :
    t.booted = true ∧ fetch t = some ⟨t.cmd, t.arg0, t.arg1⟩ := by
  obtain ⟨hidle, -⟩ | ⟨hcix, -, -⟩ := hcase.progress
  · exact absurd hidle hbusy
  · have hwrites := hcase.mainWrites
    rw [MainWrites, hcix] at hwrites
    rw [hwrites]
    exact ⟨hboot, hfetch⟩

/-- A MAIN step of a latched command keeps the invariant. -/
theorem blockInv_of_mainCase (hinv : BlockInv s) (hboot : s.booted = true)
    (hfetch : fetch s = some ⟨s.cmd, s.arg0, s.arg1⟩) (hdecode : decode ⟨s.cmd, s.arg0, s.arg1⟩ = .ok i)
    (hcase : MainCase i s t) : BlockInv t := by
  obtain ⟨hwf, -⟩ := EncodingLaws.decode_ok hdecode
  have htx := txOk_of_mainCase hinv hcase
  have hhid := hidOk_of_mainCase hinv hcase
  have hrx := rxOk_of_mainCase ⟨hinv.rxFits, hinv.rxBanks⟩ hcase
  have hreports := reportsOk_of_mainCase hwf ⟨hinv.buttons, hinv.kbReserved⟩ hcase
  have hkept : BlockInv s → t.cfg.WF ∧ t.fractionCount < t.cfg.fractMax ∧ t.tcnt ≤ t.cfg.tcntMax ∧
      t.frame < 2 ^ t.cfg.frameBits ∧ Memory.wf t.mem ∧ ∀ c ∈ t.mem, c.1 < 2 ^ t.cfg.addrBits := by
    rw [hcase.mainWrites]
    exact fun h => ⟨h.config, h.fraction, h.tcnt, h.frame, h.memForm, h.memRange⟩
  obtain ⟨hconfig, hfraction, htcnt, hframe, hform, hrange⟩ := hkept hinv
  exact {
    config := hconfig, fraction := hfraction, tcnt := htcnt, frame := hframe
    endpoints := endpointOk_of_channels htx hhid
    rxFits := hrx.1, rxBanks := hrx.2
    hidEmpty := hidEmpty_of_hidOk hhid
    cdcPartial := htx.2.1, deadline := htx.2.2
    buttons := hreports.1, kbReserved := hreports.2
    memForm := hform, memRange := hrange
    latched := latched_of_mainCase hboot hfetch hcase
    phase := phaseOk_of_mainCase hinv (currentInstr_eq_some_iff.2 ⟨_, hfetch, hdecode⟩) hcase }

/-- Latching the command of an idle block keeps the invariant. -/
theorem blockInv_latch (hinv : BlockInv s) (hidle : s.phase = .idle) (c : Command) : BlockInv (latch c s) :=
  { hinv with latched := fun hbusy => absurd hidle hbusy, phase := phaseOk_of_idle hidle }

/-- Before boot no command is running. -/
theorem idle_of_unbooted (hinv : BlockInv s) (hboot : s.booted = false) : s.phase = .idle := by
  by_contra hbusy
  simp [(hinv.latched hbusy).1] at hboot

theorem blockInv_of_mainStepCase (hinv : BlockInv s) (hcase : MainStepCase s t) : BlockInv t := by
  cases hcase with
  | boots hboot =>
    have hidle := idle_of_unbooted hinv hboot
    exact { hinv with latched := fun hbusy => absurd hidle hbusy, phase := phaseOk_of_idle hidle }
  | reserved c hidle =>
    exact { blockInv_latch hinv hidle c with
      latched := fun hbusy => absurd hidle hbusy, phase := phaseOk_of_idle hidle }
  | @starts c i _ hboot hfetch hdecode hidle hcase =>
    exact blockInv_of_mainCase (blockInv_latch hinv hidle c) hboot hfetch hdecode hcase
  | @resumes c i _ hboot hfetch hdecode hbusy hcase =>
    obtain ⟨-, hlatched⟩ := hinv.latched hbusy
    obtain rfl := Option.some.inj (hfetch.symm.trans hlatched)
    exact blockInv_of_mainCase hinv hboot hlatched hdecode hcase

/-! ## A step of another agent -/

theorem phaseOk_noteTick {n : Nat} {tov : Bool} (h : PhaseOk s) :
    PhaseOk { s with tcnt := n, tov := tov, phase := s.phase.noteTick } := by
  unfold PhaseOk at h
  cases hp : s.phase <;> rw [hp] at h <;> exact h

theorem blockInv_hostPoll (hinv : BlockInv s) (p : InEp) : BlockInv (s.setInEp p (s.inEp p).poll) := by
  have hep (e : InEp) : EndpointOk s.cfg e ((s.setInEp p (s.inEp p).poll).inEp e) := by
    rw [inEp_poll]
    split
    · exact endpointOk_poll (hinv.endpoints e)
    · exact hinv.endpoints e
  obtain ⟨hkb, hms, hjs⟩ := hinv.hidEmpty
  cases p with
  | cdcTx =>
    have hcur : s.cdcTx.poll.cur = s.cdcTx.cur := poll_cur _
    exact { hinv with
      endpoints := hep
      cdcPartial := hcur ▸ hinv.cdcPartial
      deadline := fun k hk => hcur ▸ hinv.deadline k hk }
  | kb => exact { hinv with endpoints := hep, hidEmpty := ⟨(poll_cur _).trans hkb, hms, hjs⟩ }
  | ms => exact { hinv with endpoints := hep, hidEmpty := ⟨hkb, (poll_cur _).trans hms, hjs⟩ }
  | js => exact { hinv with endpoints := hep, hidEmpty := ⟨hkb, hms, (poll_cur _).trans hjs⟩ }

/-- Configuration empties every bank. -/
theorem blockInv_configure (hinv : BlockInv s) : BlockInv (configureEffect s) := by
  obtain ⟨-, -, -, -, ⟨hsize, -⟩, -⟩ := hinv.config
  exact { hinv with
    endpoints := fun e => by
      have hep := endpointOk_cleared (hinv.endpoints e)
      cases e <;> exact hep
    rxFits := Nat.zero_le _
    rxBanks := nofun
    hidEmpty := ⟨rfl, rfl, rfl⟩
    cdcPartial := hsize
    deadline := nofun }

theorem blockInv_of_envCase {e : EnvStep} (hinv : BlockInv s) (hcase : EnvCase s e t) : BlockInv t := by
  cases hcase with
  | disabled => exact hinv
  | timerHw hon =>
    have htcnt := hinv.tcnt
    exact { hinv with
      tcnt := by
        show (if s.tcnt = s.cfg.tcntMax then 0 else s.tcnt + 1) ≤ s.cfg.tcntMax
        split <;> omega
      latched := fun hbusy => hinv.latched fun hidle => hbusy ((AgentLaws.noteTick_eq_idle_iff _).2 hidle)
      phase := phaseOk_noteTick hinv.phase }
  | frameHw hon => exact { hinv with frame := Nat.mod_lt _ (Nat.two_pow_pos _) }
  | timerIsr hon =>
    obtain ⟨-, hinc, -⟩ := hinv.config
    obtain ⟨-, hfraction⟩ := ClockLaws.onTimerTick_divMod hinc hinv.fraction
    exact { hinv with fraction := hfraction.trans_lt (Nat.mod_lt _ (Nat.zero_lt_of_lt hinv.fraction)) }
  | sofCounts sel k harmed hlt =>
    obtain ⟨-, hk, hcur⟩ := hinv.deadline k harmed
    exact { hinv with
      deadline := fun n hn => by
        obtain rfl : k - 1 = n := Option.some.inj hn
        exact ⟨Nat.le_sub_one_of_lt hlt, (Nat.sub_le ..).trans hk, hcur⟩ }
  | sofReleases sel =>
    obtain ⟨hep, hpartial, hdeadline⟩ := txOk_release sel (txOk_of_blockInv hinv)
    exact { hinv with
      endpoints := fun e => by
        cases e with
        | cdcTx => exact hep
        | kb => exact hinv.endpoints .kb
        | ms => exact hinv.endpoints .ms
        | js => exact hinv.endpoints .js
      cdcPartial := hpartial
      deadline := hdeadline }
  | link event sel =>
    cases event with
    | configure => exact { blockInv_configure hinv with }
    | _ => exact { hinv with }
  | hostPoll p => exact blockInv_hostPoll hinv p
  | hostDeliver p hon =>
    obtain ⟨-, -, hroom, hfits⟩ := (AgentLaws.hostDeliverEnabled_iff p s).1 hon
    exact { hinv with
      rxFits := (List.length_append ..).trans_le hroom
      rxBanks := fun bank hbank => (List.mem_append.1 hbank).elim (hinv.rxBanks bank)
        fun hnew => List.mem_singleton.1 hnew ▸ hfits }
  | _ => exact { hinv with }

/-! ## A step of the machine -/

theorem blockInv_of_stepBy {a : AgentStep} (hinv : BlockInv s) (hnext : stepBy a s = .next t) : BlockInv t := by
  obtain rfl | hmain | ⟨e, -, rfl⟩ := stepBy_case hnext
  · exact hinv
  · exact blockInv_of_mainStepCase hinv hmain
  · exact blockInv_of_envCase hinv (envStep_case e s)

/-- The invariant does not speak of the schedule. -/
theorem blockInv_withSched (hinv : BlockInv s) (rest : List AgentStep) : BlockInv { s with sched := rest } :=
  { hinv with }

/-! ## No step stops (R128, R229) -/

/-- A command at a phase of its own answers with a next state. -/
theorem exec_next (hinv : BlockInv s) (hown : OwnPhase i s.phase) : ∃ t, exec i s = .next t := by
  have houtcome := mainOutcome i s
  generalize exec i s = r at houtcome
  cases houtcome with
  | next => exact ⟨_, rfl⟩
  | mismatch hforeign => exact absurd hown hforeign
  | @overlong e stage u hchan hat hlong =>
    obtain ⟨-, hcur⟩ := hidOk_of_blockInv hinv e (ne_cdcTx_of_hidChannel hchan)
    have hcfg : u.cfg = s.cfg := by rw [hat.writes]
    rw [hat.inEp e, hcur, hcfg] at hlong
    exact absurd hlong (by simpa using hidReport_fits hinv.config hchan u)

theorem runCommand_next {c : Command} (hinv : BlockInv s) (hfetch : fetch s = some c) :
    ∃ t, runCommand c s = .next t := by
  by_cases hidle : s.phase = .idle
  · cases hdecode : decode c with
    | error e => exact ⟨_, StepLaws.runCommand_of_reserved hidle ⟨e, hdecode⟩⟩
    | ok i =>
      rw [StepLaws.runCommand_of_idle hidle hdecode]
      refine exec_next (blockInv_latch hinv hidle c) ?_
      rw [latch_phase, hidle]
      trivial
  · obtain ⟨i, hcur⟩ := currentInstr_of_busy hinv.phase hidle
    obtain ⟨c', hfetch', hdecode⟩ := currentInstr_eq_some_iff.1 hcur
    obtain rfl := Option.some.inj (hfetch.symm.trans hfetch')
    rw [StepLaws.runCommand_of_busy hidle hdecode]
    exact exec_next hinv (ownPhase_of_phaseOk hinv.phase hcur)

/-- MAIN stops only at the end of the stream and on a stopped block. -/
theorem mainStep_next_or (hinv : BlockInv s) : (∃ t, mainStep s = .next t) ∨
    (mainStep s = .fault .streamEnd ∧ s.status = .running ∧ s.booted = true ∧ s.prog.length ≤ s.cix) ∨
    (mainStep s = .fault (.halted s.status) ∧ s.status ≠ .running) := by
  by_cases hrun : s.status = .running
  · cases hboot : s.booted with
    | false => exact .inl ⟨_, StepLaws.mainStep_of_unbooted hrun hboot⟩
    | true =>
      cases hfetch : fetch s with
      | some c =>
        rw [StepLaws.mainStep_of_fetch hrun hboot hfetch]
        exact .inl (runCommand_next hinv hfetch)
      | none =>
        refine .inr (.inl ⟨?_, hrun, rfl, List.getElem?_eq_none_iff.1 hfetch⟩)
        simp only [mainStep, hrun, hboot, if_true, hfetch]
  · exact .inr (.inr ⟨StepLaws.mainStep_of_stopped hrun, hrun⟩)

theorem mainEnabled_iff (s : State) :
    mainEnabled s = true ↔ s.status = .running ∧ (s.booted = false ∨ s.cix < s.prog.length) := by
  simp [mainEnabled]

/-- A step that a schedule names never stops. -/
theorem stepBy_next (hinv : BlockInv s) (a : AgentStep) : ∃ t, stepBy a s = .next t := by
  cases a with
  | env e => exact ⟨_, rfl⟩
  | main =>
    simp only [stepBy, mainScheduled]
    split
    · next henabled =>
      obtain ⟨hrun, hmore⟩ := (mainEnabled_iff s).1 henabled
      obtain hnext | ⟨-, -, hboot, hend⟩ | ⟨-, hstop⟩ := mainStep_next_or hinv
      · exact hnext
      · rw [hboot] at hmore
        exact absurd (hmore.resolve_left (by decide)) (Nat.not_lt.2 hend)
      · exact absurd hrun hstop
    · exact ⟨s, rfl⟩

end

/-- Settles O57: `blockInv_of_mainStepCase` and `blockInv_of_envCase`, whichever agent the step is of. -/
theorem stepKeepsInvariant : Obligations.StepKeepsInvariant := by
  intro s t hinv hnext
  obtain ⟨-, hstep⟩ | ⟨a, rest, -, hstep⟩ := step_eq s <;> rw [hstep] at hnext
  · exact blockInv_of_mainStepCase hinv (mainStep_case hnext)
  · exact blockInv_of_stepBy (blockInv_withSched hinv rest) hnext

/-- Settles O58: an unscheduled MAIN step by `mainStep_next_or`, a scheduled one by `stepBy_next`. -/
theorem stepNeverBreaks : Obligations.StepNeverBreaks := by
  intro s hinv
  obtain ⟨hsched, hstep⟩ | ⟨a, rest, -, hstep⟩ := step_eq s <;> rw [hstep]
  · obtain ⟨t, hnext⟩ | ⟨hend, hrun, -, hlast⟩ | ⟨hhalt, hstop⟩ := mainStep_next_or hinv
    · rw [hnext]
      exact ⟨nofun, nofun⟩
    · rw [hend]
      refine ⟨fun f hf => ?_, nofun⟩
      cases hf
      exact ⟨hsched, .inl ⟨rfl, hrun, hlast⟩⟩
    · rw [hhalt]
      refine ⟨fun f hf => ?_, nofun⟩
      cases hf
      exact ⟨hsched, .inr ⟨rfl, hstop⟩⟩
  · obtain ⟨t, hnext⟩ := stepBy_next (blockInv_withSched hinv rest) a
    rw [hnext]
    exact ⟨nofun, nofun⟩

/-! ## Fair runs (R276) -/

section Fair

variable {f : Nat → AgentStep} {s : State}

theorem trace_succ {t : State} {n : Nat} (hnext : stepBy (f n) (trace f s n) = .next t) : trace f s (n + 1) = t := by
  rw [trace, hnext]

/-- On a run from a state of the invariant every step is taken, and every state meets it. -/
theorem trace_run (hinv : BlockInv s) (n : Nat) :
    BlockInv (trace f s n) ∧ stepBy (f n) (trace f s n) = .next (trace f s (n + 1)) := by
  have hn : BlockInv (trace f s n) := by
    induction n with
    | zero => exact hinv
    | succ n ih =>
      obtain ⟨t, hnext⟩ := stepBy_next ih (f n)
      rw [trace_succ hnext]
      exact blockInv_of_stepBy ih hnext
  obtain ⟨t, hnext⟩ := stepBy_next hn (f n)
  exact ⟨hn, hnext.trans (by rw [trace_succ hnext])⟩

/-- A MAIN step leaves the timer running unless it stops the block. -/
theorem timer_of_mainCase {i : Instr} {t : State} (h : MainCase i s t) :
    t.timerRunning = s.timerRunning ∨ t.status ≠ .running := by
  cases h with
  | quick v hidle hquick => cases hquick <;> exact .inl rfl
  | stops attached status hidle hi hstopped hclean => exact .inr hstopped
  | writes hi hcase => exact .inl (by rw [hcase.writes])
  | drops hat => exact .inl (by rw [afterSend_writes, hat.writes])
  | waits hchan hat hstart => exact .inl (by rw [hat.writes])
  | sends hchan hat hfree hfits =>
    exact .inl (by rw [afterSend_writes, hidAppended_writes (ne_cdcTx_of_hidChannel hchan), hat.writes])
  | _ => exact .inl rfl

theorem timer_of_stepBy {a : AgentStep} {t : State} (hnext : stepBy a s = .next t) (hrun : t.status = .running)
    (htimer : s.timerRunning = true) : t.timerRunning = true := by
  obtain rfl | hmain | ⟨e, -, rfl⟩ := stepBy_case hnext
  · exact htimer
  · cases hmain with
    | boots => rfl
    | reserved => exact htimer
    | starts _ _ _ _ hcase | resumes _ _ _ _ hcase =>
      exact ((timer_of_mainCase hcase).resolve_right (absurd hrun)).trans htimer
  · rw [AgentLaws.envStep_timerRunning, htimer]

/-- A MAIN step leaves no window with its tick in it. -/
theorem window_of_mainCase {i : Instr} {t : State} (h : MainCase i s t) : t.phase.windowFull = false := by
  have hstays (hidle : s.phase = .idle) : s.phase.windowFull = false := by rw [hidle]; rfl
  have hafter (i : Instr) (stage : Nat) (u : State) : (afterSend i stage u).phase.windowFull = false := by
    obtain ⟨-, hu⟩ | ⟨-, hu⟩ := afterSend_cases i stage u <;> rw [hu] <;> rfl
  cases h with
  | stops _ _ hidle => exact hstays hidle
  | badOperand _ _ hidle => exact hstays hidle
  | writes hi hcase =>
    cases hcase with
    | badBuffer hidle => exact hstays hidle
    | gaveUp => rfl
    | waits hwait => exact windowFull_of_closed (by rw [hwait]; rfl)
    | wrote hfrom hu hwrote _ =>
      obtain ⟨hidle, -⟩ | ⟨-, -, n, -, hwait⟩ := hwrote.stop
      · rw [hidle]; rfl
      · rw [hwait]; rfl
  | drops | sends => exact hafter ..
  | _ => rfl

/-- MAIN, while it has a step, closes the window it finds full. -/
theorem window_of_main {t : State} (hinv : BlockInv s) (hon : mainEnabled s = true) (hnext : stepBy .main s = .next t) :
    t.phase.windowFull = false := by
  simp only [stepBy, mainScheduled, hon, if_true] at hnext
  have hidle (hp : s.phase = .idle) : s.phase.windowFull = false := by rw [hp]; rfl
  cases mainStep_case hnext with
  | boots hboot => exact hidle (idle_of_unbooted hinv hboot)
  | reserved c hp => exact hidle hp
  | starts _ _ _ _ hcase | resumes _ _ _ _ hcase => exact window_of_mainCase hcase

/-- A window that is not full becomes full only by an enabled TIMER_HW step. -/
theorem window_stays {a : AgentStep} {t : State} (hinv : BlockInv s) (hnext : stepBy a s = .next t)
    (hquiet : a = .env .timerHw → timerHwEnabled s = false) (hwindow : s.phase.windowFull = false) :
    t.phase.windowFull = false := by
  cases a with
  | main =>
    cases hon : mainEnabled s with
    | true => exact window_of_main hinv hon hnext
    | false =>
      simp only [stepBy, mainScheduled, hon] at hnext
      obtain rfl : s = t := by simpa using hnext
      exact hwindow
  | env e =>
    obtain rfl : envStep e s = t := by simpa [stepBy] using hnext
    obtain hphase | ⟨-, rfl, hon⟩ := (envStep_case e s).phase
    · rw [hphase]
      exact hwindow
    · simp [hquiet rfl] at hon

/-- A full window is that of a command that is busy, so MAIN has a step. -/
theorem mainEnabled_of_window (hinv : BlockInv s) (hrun : s.status = .running) (hfull : s.phase.windowFull = true) :
    mainEnabled s = true := by
  have hbusy : s.phase ≠ .idle := fun hidle => by simp [hidle, Phase.windowFull] at hfull
  exact StepLaws.mainEnabled_of_fetch hrun (hinv.latched hbusy).2

end Fair

/-- Settles O59. Suppose that from some time on no TIMER_HW step were enabled when it came. MAIN's fairness then closes
the window of a sample, no tick opens it again, so TIMER_HW stays enabled and its own fairness brings its step. -/
theorem fairTimerTicks : Obligations.FairTimerTicks := by
  rintro f s hinv ⟨hfairMain, hfairTimer, -⟩ htimer hrun n
  by_contra hnever
  have hquiet (m : Nat) (hm : n ≤ m) (hf : f m = .env .timerHw) : timerHwEnabled (trace f s m) = false :=
    Bool.eq_false_iff.2 fun hon => hnever ⟨m, hm, hf, hon⟩
  have htimers (m : Nat) : (trace f s m).timerRunning = true := by
    induction m with
    | zero => exact htimer
    | succ m ih => exact timer_of_stepBy (trace_run hinv m).2 (hrun (m + 1)) ih
  obtain ⟨m, hm, hopen⟩ : ∃ m, n ≤ m ∧ (trace f s m).phase.windowFull = false := by
    by_contra hfull
    have hon (m : Nat) (hm : n ≤ m) : mainEnabled (trace f s m) = true :=
      mainEnabled_of_window (trace_run hinv m).1 (hrun m) (by simpa using fun h => hfull ⟨m, hm, h⟩)
    obtain ⟨m, hm, htaken⟩ := hfairMain n hon
    obtain ⟨hinvM, hnext⟩ := trace_run (f := f) hinv m
    rw [of_decide_eq_true htaken] at hnext
    exact hfull ⟨m + 1, Nat.le_succ_of_le hm, window_of_main hinvM (hon m hm) hnext⟩
  have hstays (k : Nat) (hk : m ≤ k) : (trace f s k).phase.windowFull = false := by
    induction k, hk using Nat.le_induction with
    | base => exact hopen
    | succ k hk ih => exact window_stays (trace_run hinv k).1 (trace_run hinv k).2 (hquiet k (hm.trans hk)) ih
  have hon (k : Nat) (hk : m ≤ k) : timerHwEnabled (trace f s k) = true :=
    (AgentLaws.timerHwEnabled_iff _).2 ⟨htimers k, hrun k, hstays k hk⟩
  obtain ⟨k, hk, htaken⟩ := hfairTimer m hon
  exact hnever ⟨k, hm.trans hk, of_decide_eq_true htaken, hon k hk⟩

end Sys2Proof.Machine.InvariantLaws
end

section
/-! SUPPORT. No command reads the value `SEL` has between its steps (41_endpoint.md R125): each one selects before it
uses an endpoint, so two runs that differ in `SEL` alone go the same way. -/

namespace Sys2Proof.Machine.SelectionLaws

open MainLaws (OwnPhase exec_hid_foreign)
open HidLaws (hidPrepare hidSilent exec_hid_start exec_hid_yield exec_hid_wait)
open SampleLaws (exec_micros_opens exec_micros_closes exec_delay_opens exec_delay_starts exec_delay_reopens
  exec_delay_counts)

/-! ## Outcomes that agree but for `SEL` -/

/-- If `r` is a next state, so is `r'`, and the two differ at most in `SEL`. -/
def Agrees (r r' : StepOutcome) : Prop := ∀ t, r = .next t → ∃ u, r' = .next u ∧ { u with sel := t.sel } = t

/-- The state with another selection. -/
def withSel (sel : Endpoint) (s : State) : State := { s with sel := sel }

/-- An update that neither reads nor writes `SEL`. -/
def KeepsSel (f : State → State) : Prop := ∀ sel s, f (withSel sel s) = withSel sel (f s)

section

variable {s s' t u : State} {sel : Endpoint}

theorem agrees_next (h : { u with sel := t.sel } = t) : Agrees (.next t) (.next u) := by
  intro t' ht
  obtain rfl : t = t' := by simpa using ht
  exact ⟨u, rfl, h⟩

theorem agrees_fault (f : Fault) (r : StepOutcome) : Agrees (.fault f) r := by
  intro t ht
  cases ht

theorem agrees_keeps {f : State → State} (hf : KeepsSel f) (sel : Endpoint) (s : State) :
    Agrees (.next (f s)) (.next (f (withSel sel s))) := by
  rw [hf]
  exact agrees_next rfl

/-- One and the same result of the body; a fault it raises is raised from the two states. -/
theorem agrees_conclude (r : Except Stop State) (sel : Endpoint) (s : State) :
    Agrees (conclude s r) (conclude (withSel sel s) r) := by
  match r with
  | .ok t => exact agrees_next rfl
  | .error (.raise code) => exact agrees_next rfl
  | .error (.broken f) => exact agrees_fault f _

/-- A branch that both bodies take alike. -/
theorem agrees_ite {c : Prop} [Decidable c] {a b a' b' : Except Stop State}
    (hthen : c → Agrees (conclude s a) (conclude s' a')) (helse : ¬ c → Agrees (conclude s b) (conclude s' b')) :
    Agrees (conclude s (if c then a else b)) (conclude s' (if c then a' else b')) := by
  by_cases hc : c
  · rw [if_pos hc, if_pos hc]
    exact hthen hc
  · rw [if_neg hc, if_neg hc]
    exact helse hc

theorem agrees_atIdle {body : State → Except Stop State}
    (hbody : Agrees (conclude s (body s)) (conclude (withSel sel s) (body (withSel sel s)))) :
    Agrees (atIdle body s) (atIdle body (withSel sel s)) := by
  by_cases hidle : s.phase = .idle
  · rw [atIdle_idle hidle, atIdle_idle (s := withSel sel s) hidle]
    exact hbody
  · unfold atIdle
    split
    · contradiction
    · exact agrees_fault _ _

/-! ## The serial commands of one step -/

theorem agrees_serAvailable (sel : Endpoint) (s : State) :
    Agrees (execSerAvailable s) (execSerAvailable (withSel sel s)) :=
  agrees_atIdle (agrees_conclude _ sel s)

theorem agrees_serFlush (sel : Endpoint) (s : State) : Agrees (execSerFlush s) (execSerFlush (withSel sel s)) := by
  refine agrees_atIdle ?_
  have hlink : linkUsable (csEnter (withSel sel s)) = linkUsable (csEnter s) := rfl
  simp only [hlink]
  cases linkUsable (csEnter s) with
  | true => exact agrees_conclude _ sel s
  | false => exact agrees_next rfl

theorem agrees_serSendNow (sel : Endpoint) (s : State) : Agrees (execSerSendNow s) (execSerSendNow (withSel sel s)) := by
  refine agrees_atIdle (agrees_ite (fun _ => agrees_conclude _ sel s) fun _ => agrees_next rfl)

/-- `RxGet` selects the OUT endpoint on a usable link, and does nothing on an unusable one. -/
theorem agrees_rxGet {k : Option Byte × State → Except Stop State}
    (hk : Agrees (conclude s (k (none, s))) (conclude (withSel sel s) (k (none, withSel sel s)))) :
    Agrees (conclude s (rxGet s >>= k)) (conclude (withSel sel s) (rxGet (withSel sel s) >>= k)) := by
  cases hlink : linkUsable s with
  | true =>
    rw [rxGet_usable hlink, rxGet_usable (s := withSel sel s) hlink]
    exact agrees_conclude _ sel s
  | false =>
    rw [rxGet_unusable hlink, rxGet_unusable (s := withSel sel s) hlink]
    exact hk

theorem agrees_serPeek (sel : Endpoint) (s : State) : Agrees (execSerPeek s) (execSerPeek (withSel sel s)) := by
  refine agrees_atIdle ?_
  have hheld : (withSel sel s).peekByte = s.peekByte := rfl
  simp only [hheld]
  cases s.peekByte with
  | some b => exact agrees_next rfl
  | none => exact agrees_rxGet (agrees_next rfl)

theorem agrees_serRead (sel : Endpoint) (s : State) : Agrees (execSerRead s) (execSerRead (withSel sel s)) := by
  refine agrees_atIdle ?_
  have hheld : (withSel sel s).peekByte = s.peekByte := rfl
  simp only [hheld]
  cases s.peekByte with
  | some b => exact agrees_next rfl
  | none => exact agrees_rxGet (agrees_next rfl)

theorem agrees_jsSetByte (idx : Word) (v : Byte) (sel : Endpoint) (s : State) :
    Agrees (execJsSetByte idx v s) (execJsSetByte idx v (withSel sel s)) := by
  refine agrees_atIdle ?_
  split <;> exact agrees_next rfl

theorem agrees_accessor (field : State → Word) (hfield : field (csEnter (withSel sel s)) = field (csEnter s)) :
    Agrees (accessor field s) (accessor field (withSel sel s)) := by
  refine agrees_atIdle ?_
  simp only [hfield]
  exact agrees_next rfl

theorem agrees_kbSetter (k : Fin 8) (v : Byte) (sel : Endpoint) (s : State) :
    Agrees (kbSetter k v s) (kbSetter k v (withSel sel s)) :=
  agrees_atIdle (agrees_next rfl)

/-! ## MICROS and DELAY -/

theorem agrees_micros (sel : Endpoint) (s : State) : Agrees (exec .micros s) (exec .micros (withSel sel s)) := by
  cases hphase : s.phase with
  | idle =>
    rw [exec_micros_opens hphase, exec_micros_opens (s := withSel sel s) hphase]
    exact agrees_next rfl
  | microsWindow w =>
    rw [exec_micros_closes hphase, exec_micros_closes (s := withSel sel s) hphase]
    exact agrees_next rfl
  | _ =>
    have hfault : exec .micros s = .fault .phaseMismatch := by
      show execMicros s = _
      simp only [execMicros, hphase]
    rw [hfault]
    exact agrees_fault _ _

theorem keepsSel_delayHead (ms start : Word) (saved : Bool) : KeepsSel fun s => delayHead ms start (csExit saved s) := by
  intro sel s
  simp only [delayHead]
  split <;> rfl

theorem agrees_delay (total : Word) (sel : Endpoint) (s : State) :
    Agrees (exec (.delay total) s) (exec (.delay total) (withSel sel s)) := by
  cases hphase : s.phase with
  | idle =>
    rw [exec_delay_opens hphase, exec_delay_opens (s := withSel sel s) hphase]
    exact agrees_next rfl
  | delayFirst w ms =>
    rw [exec_delay_starts hphase, exec_delay_starts (s := withSel sel s) hphase]
    exact agrees_keeps (keepsSel_delayHead ms (sampleNow w s) w.saved) sel s
  | delayYield ms start =>
    rw [exec_delay_reopens hphase, exec_delay_reopens (s := withSel sel s) hphase]
    exact agrees_next rfl
  | delayWindow w ms start =>
    rw [exec_delay_counts hphase, exec_delay_counts (s := withSel sel s) hphase]
    have hnow : sampleNow w (withSel sel s) = sampleNow w s := rfl
    simp only [delayCount, hnow]
    split <;> exact agrees_keeps (keepsSel_delayHead _ _ w.saved) sel s
  | _ =>
    have hfault : exec (.delay total) s = .fault .phaseMismatch := by
      show execDelay total s = _
      simp only [execDelay, hphase]
    rw [hfault]
    exact agrees_fault _ _

/-! ## SER_WRITE -/

theorem agrees_writeStart (buf size : Nat) (sel : Endpoint) (s : State) :
    Agrees (conclude s (writeStart buf size s)) (conclude (withSel sel s) (writeStart buf size (withSel sel s))) := by
  rw [writeStart_eq, writeStart_eq]
  refine agrees_ite (fun _ => agrees_next rfl) fun _ => agrees_ite (fun _ => agrees_next rfl) fun _ => ?_
  exact agrees_ite (fun _ => agrees_conclude _ sel s) fun _ => agrees_ite (fun _ => agrees_conclude _ sel s)
    fun _ => agrees_conclude _ sel s

/-- The four ways from the yield of the wait. -/
theorem writeResume_eq (buf size count start : Nat) (s : State) : writeResume buf size count start s =
    if linkUsable s = false then .ok (complete (natResult count) (markWriteError s))
    else if s.cfg.txTimeout ≤ subMod s.cfg.frameBits s.frame start then .ok (complete (natResult count) (markTimedOut s))
    else if writable .cdcTx s = true then
      writeAfterWait (writeLoop size) buf size count start (.ready s.ie (enterSelect .cdcTx s))
    else .ok { s with sel := .cdcTx, phase := .serWait buf size count start } := by
  rw [writeResume, waitResume_eq, ok_bind]
  split
  · rfl
  · split
    · rfl
    · split <;> rfl

theorem agrees_writeResume (buf size count start : Nat) (sel : Endpoint) (s : State) :
    Agrees (conclude s (writeResume buf size count start s))
      (conclude (withSel sel s) (writeResume buf size count start (withSel sel s))) := by
  rw [writeResume_eq, writeResume_eq]
  exact agrees_ite (fun _ => agrees_next rfl) fun _ => agrees_ite (fun _ => agrees_next rfl) fun _ =>
    agrees_ite (fun _ => agrees_conclude _ sel s) fun _ => agrees_next rfl

theorem agrees_serWrite (b z : Word) (sel : Endpoint) (s : State) :
    Agrees (exec (.serWrite b z) s) (exec (.serWrite b z) (withSel sel s)) := by
  by_cases hidle : s.phase = .idle
  · rw [SerialLaws.exec_serWrite_of_idle hidle, SerialLaws.exec_serWrite_of_idle (s := withSel sel s) hidle]
    exact agrees_writeStart _ _ sel s
  by_cases hwait : ∃ buf size count start, s.phase = .serWait buf size count start
  · obtain ⟨buf, size, count, start, hwait⟩ := hwait
    rw [SerialLaws.exec_serWrite_of_wait hwait, SerialLaws.exec_serWrite_of_wait (s := withSel sel s) hwait]
    exact agrees_writeResume buf size count start sel s
  · rw [SerialLaws.exec_serWrite_of_foreign b z hidle fun buf size count start h => hwait ⟨_, _, _, _, h⟩]
    exact agrees_fault _ _

/-! ## HID commands -/

theorem inEp_withSel (e : InEp) (sel : Endpoint) (s : State) : (withSel sel s).inEp e = s.inEp e := by cases e <;> rfl

theorem writable_withSel (e : InEp) (sel : Endpoint) (s : State) : writable e (withSel sel s) = writable e s :=
  writable_congr (inEp_withSel e sel s) rfl

theorem hidAppended_withSel (e : InEp) (report : List Byte) (sel : Endpoint) (s : State) :
    hidAppended e report (withSel sel s) = hidAppended e report s := by
  cases e <;> rfl

theorem hidReport_withSel (i : Instr) (e : InEp) (sel : Endpoint) (s : State) :
    hidReport i e (withSel sel s) = hidReport i e s := by
  cases e <;> rfl

theorem hidSilent_withSel (i : Instr) (sel : Endpoint) (s : State) : hidSilent i (withSel sel s) = hidSilent i s := by
  cases i <;> rfl

theorem keepsSel_hidPrepare (i : Instr) (stage : Nat) : KeepsSel (hidPrepare i stage) := by
  intro sel s
  unfold hidPrepare
  split <;> rfl

theorem keepsSel_afterSend (i : Instr) (stage : Nat) : KeepsSel (afterSend i stage) := by
  intro sel s
  unfold afterSend
  split <;> rfl

theorem agrees_hidSend (e : InEp) (report : List Byte) (i : Instr) (stage : Nat) (sel : Endpoint) (s u : State) :
    Agrees (conclude s (hidSend e report stage (afterSend i stage) u))
      (conclude (withSel sel s) (hidSend e report stage (afterSend i stage) (withSel sel u))) := by
  rw [hidSend_eq, hidSend_eq, writable_withSel, inEp_withSel, hidAppended_withSel]
  exact agrees_ite (fun _ => agrees_keeps (keepsSel_afterSend i stage) sel u) fun _ =>
    agrees_ite (fun _ => agrees_next rfl) fun _ => agrees_ite (fun _ => agrees_next rfl) fun _ => agrees_fault _ _

theorem agrees_hidResume (e : InEp) (report : List Byte) (i : Instr) (stage start : Nat) (sel : Endpoint) (s : State) :
    Agrees (conclude s (hidResume e report stage start (afterSend i stage) s))
      (conclude (withSel sel s) (hidResume e report stage start (afterSend i stage) (withSel sel s))) := by
  rw [hidResume_eq, hidResume_eq, writable_withSel, inEp_withSel, hidAppended_withSel]
  exact agrees_ite (fun _ => agrees_keeps (keepsSel_afterSend i stage) sel s) fun _ =>
    agrees_ite (fun _ => agrees_next rfl) fun _ => agrees_ite (fun _ => agrees_next rfl) fun _ => agrees_fault _ _

theorem agrees_hid {i : Instr} {e : InEp} (hchan : hidChannel i = some e) (sel : Endpoint) (s : State) :
    Agrees (exec i s) (exec i (withSel sel s)) := by
  by_cases hown : OwnPhase i s.phase
  case neg =>
    rw [exec_hid_foreign hchan hown]
    exact agrees_fault _ _
  cases hphase : s.phase with
  | idle =>
    rw [exec_hid_start hchan hphase, exec_hid_start (s := withSel sel s) hchan hphase, hidSilent_withSel,
      keepsSel_hidPrepare i 1, hidReport_withSel]
    split
    · exact agrees_next rfl
    · exact agrees_hidSend e _ i _ sel s _
  | hidWait stage start =>
    rw [hphase] at hown
    obtain ⟨hlo, hhi⟩ := hown
    rw [exec_hid_wait hchan hphase hlo hhi, exec_hid_wait (s := withSel sel s) hchan hphase hlo hhi, hidReport_withSel]
    exact agrees_hidResume e _ i stage start sel s
  | hidYield stage =>
    rw [hphase] at hown
    obtain ⟨hlo, hhi⟩ := hown
    rw [exec_hid_yield hchan hphase hlo hhi, exec_hid_yield (s := withSel sel s) hchan hphase hlo hhi,
      keepsSel_hidPrepare i (stage + 1), hidReport_withSel]
    exact agrees_hidSend e _ i _ sel s _
  | _ => cases i <;> cases hchan <;> simp [hphase, OwnPhase] at hown

end

/-! ## Every command -/

theorem agrees_exec (i : Instr) (sel : Endpoint) (s : State) : Agrees (exec i s) (exec i (withSel sel s)) := by
  cases hchan : hidChannel i with
  | some e => exact agrees_hid hchan sel s
  | none =>
    cases i with
    | micros => exact agrees_micros sel s
    | delay total => exact agrees_delay total sel s
    | serWrite b z => exact agrees_serWrite b z sel s
    | serAvailable => exact agrees_serAvailable sel s
    | serPeek => exact agrees_serPeek sel s
    | serRead => exact agrees_serRead sel s
    | serFlush => exact agrees_serFlush sel s
    | serSendNow => exact agrees_serSendNow sel s
    | jsSetByte idx v => exact agrees_jsSetByte idx v sel s
    | kbSendNow | kbReleaseAll | kbType | msMove | msPress | msRelease | msClick | msSetButtons | jsSendNow => cases hchan
    | serBaud => exact agrees_accessor (fun s => s.line.baud) rfl
    | serStopbits => exact agrees_accessor (fun s => byteResult s.line.stopbits) rfl
    | serParitytype => exact agrees_accessor (fun s => byteResult s.line.paritytype) rfl
    | serNumbits => exact agrees_accessor (fun s => byteResult s.line.numbits) rfl
    | serDtr => exact agrees_accessor (fun s => boolResult s.line.dtr) rfl
    | serRts => exact agrees_accessor (fun s => boolResult s.line.rts) rfl
    | serReady => exact agrees_accessor (fun s => boolResult (linkReady s)) rfl
    | kbSetModifier v | kbSetKey1 v | kbSetKey2 v | kbSetKey3 v | kbSetKey4 v | kbSetKey5 v | kbSetKey6 v =>
      exact agrees_kbSetter _ v sel s
    | millis | delayUs | serGetWriteError | sysReboot | sysRestart | csEnter | csExit =>
      simp only [exec]
      refine agrees_atIdle ?_
      exact agrees_next rfl

/-- Settles O60: `agrees_exec` of the two states. -/
theorem selNeverMatters : Obligations.SelNeverMatters := fun i s t sel hnext => agrees_exec i sel s t hnext

end Sys2Proof.Machine.SelectionLaws
end

section
/-! SUPPORT. What a wait and a host do over several steps (41_endpoint.md R130, R135, 43_hid.md R190, R197): a wait whose
frames have passed ends at MAIN's next step, and a host that polls after each send receives each report once. -/

namespace Sys2Proof.Machine.HostLaws

open AgentLaws (envStep_case envStep_phase_of_closed envStep_hostPoll)
open HidLaws (hidPrepare hidPrepare_writes hidSilent exec_hid_start_outcome exec_hid_start_silent exec_hid_yield_outcome
  exec_hid_wait_dropped hidReport_ne_nil kbSetter_of_idle)
open SerialLaws (exec_serWrite_lost exec_serWrite_timesOut)
open InvariantLaws (hidOk_of_blockInv hidReport_fits)

/-! ## Frames counted during a wait (R137, R140) -/

/-- One more frame, within the counter's range or around it. -/
theorem subMod_addMod_one (bits f start : Nat) :
    subMod bits (addMod bits f 1) start = (subMod bits f start + 1) % 2 ^ bits := by
  rw [subMod, addMod, subMod, Nat.mod_add_mod, Nat.mod_add_mod, Nat.add_right_comm]

/-- Only an enabled FRAME_HW step moves the frame counter. -/
theorem envStep_frame (e : EnvStep) (s : State) : (envStep e s).frame =
    if e = .frameHw ∧ frameHwEnabled s = true then addMod s.cfg.frameBits s.frame 1 else s.frame := by
  have hcase := envStep_case e s
  generalize envStep e s = t at hcase
  cases hcase with
  | disabled e hoff =>
    rw [if_neg]
    rintro ⟨rfl, hon⟩
    simp [envEnabled, hon] at hoff
  | frameHw hon => exact (if_pos ⟨rfl, hon⟩).symm
  | link event sel => cases event <;> simp [linkEffect, configureEffect]
  | hostPoll p => simp
  | _ => simp

/-- Below the counter's range the difference to the start frame counts the enabled FRAME_HW steps. -/
theorem envSteps_waited (steps : List EnvStep) (s : State) (start : Nat)
    (hrange : subMod s.cfg.frameBits s.frame start + frameCount steps s < 2 ^ s.cfg.frameBits) :
    subMod s.cfg.frameBits (envSteps steps s).frame start =
      subMod s.cfg.frameBits s.frame start + frameCount steps s := by
  induction steps generalizing s with
  | nil => rfl
  | cons e steps ih =>
    have hcfg : (envStep e s).cfg = s.cfg := AgentLaws.envStep_cfg e s
    have hone : subMod s.cfg.frameBits (envStep e s).frame start = subMod s.cfg.frameBits s.frame start +
        if e = .frameHw ∧ frameHwEnabled s = true then 1 else 0 := by
      rw [envStep_frame]
      rw [frameCount] at hrange
      split
      · next hframe =>
        rw [if_pos hframe] at hrange
        rw [subMod_addMod_one, Nat.mod_eq_of_lt (by omega)]
      · rfl
    rw [frameCount] at hrange ⊢
    have hrest := ih (envStep e s) (by rw [hcfg, hone]; omega)
    rw [hcfg, hone] at hrest
    exact hrest.trans (Nat.add_assoc ..)

/-- Other agents leave a command that is in no sample where it is. -/
theorem envSteps_keeps (steps : List EnvStep) {s : State} (hclosed : s.phase.openSample = none) :
    (envSteps steps s).phase = s.phase ∧ (envSteps steps s).cfg = s.cfg ∧ (envSteps steps s).cix = s.cix := by
  induction steps generalizing s with
  | nil => exact ⟨rfl, rfl, rfl⟩
  | cons e steps ih =>
    have hphase := envStep_phase_of_closed e hclosed
    obtain ⟨hp, hcfg, hcix⟩ := ih (s := envStep e s) (by rw [hphase]; exact hclosed)
    exact ⟨hp.trans hphase, hcfg.trans (AgentLaws.envStep_cfg e s), hcix.trans (AgentLaws.envStep_cix e s)⟩

/-- Settles O43: at the end of the steps the link is lost, or the counted frames have reached the budget. -/
theorem waitEndsAtDeadline : Obligations.WaitEndsAtDeadline := by
  intro s steps stage start frames hrange
  have hwaited := envSteps_waited steps s start hrange
  refine ⟨fun b z buf size count hwait hbudget => ?_, fun i e hchan hwait hlo hhi hbudget => ?_⟩
  · obtain ⟨hphase, hcfg, hcix⟩ := envSteps_keeps steps (s := s) (by rw [hwait]; rfl)
    have hwait' := hphase.trans hwait
    cases hlink : linkUsable (envSteps steps s) with
    | false => exact ⟨_, exec_serWrite_lost hwait' hlink, rfl, rfl, congrArg (· + 1) hcix, rfl⟩
    | true =>
      have hdeadline : (envSteps steps s).cfg.txTimeout ≤
          subMod (envSteps steps s).cfg.frameBits (envSteps steps s).frame start := by
        rw [hcfg, hwaited]
        exact hbudget
      exact ⟨_, exec_serWrite_timesOut hwait' hlink hdeadline, rfl, rfl, congrArg (· + 1) hcix, rfl⟩
  · obtain ⟨hphase, hcfg, -⟩ := envSteps_keeps steps (s := s) (by rw [hwait]; rfl)
    refine exec_hid_wait_dropped hchan (hphase.trans hwait) hlo hhi (.inr ?_)
    rw [hcfg, hwaited]
    exact hbudget

/-! ## A host that keeps up (R190, R197) -/

/-- The bus is up and the endpoint `e` is empty. -/
structure Ready (e : InEp) (s : State) : Prop where
  config : s.cfg.WF
  bus : busUp s = true
  cur : (s.inEp e).cur = []
  released : (s.inEp e).released = []

/-- A report sent on `e` and taken by the host. -/
def delivered (e : InEp) (report : List Byte) (s : State) : State :=
  ({ s with sel := e.toEndpoint }).setInEp e
    { s.inEp e with hostLog := (s.inEp e).hostLog ++ [report], released := [] }

section

variable {i : Instr} {e : InEp} {s : State}

theorem ready_of_blockInv (hinv : BlockInv s) (he : e ≠ .cdcTx) (hbus : busUp s = true)
    (hreleased : (s.inEp e).released = []) : Ready e s :=
  ⟨hinv.config, hbus, (hidOk_of_blockInv hinv e he).2, hreleased⟩

theorem Ready.link (h : Ready e s) : linkUsable s = true := by
  have hbus := h.bus
  rw [busUp, Bool.and_eq_true] at hbus
  exact hbus.2

theorem Ready.writable (h : Ready e s) : writable e s = true := by
  obtain ⟨-, -, -, ⟨hkb, hms, hjs⟩, ⟨htx, -⟩, ⟨btx, -, bkb, bms, bjs⟩, -⟩ := h.config
  rw [writable_iff, h.cur, h.released]
  cases e <;> simp only [PerEndpoint.at, List.length_nil] <;> omega

theorem Ready.prepare (h : Ready e s) (i : Instr) (stage : Nat) : Ready e (hidPrepare i stage s) := by
  obtain ⟨hwf, hbus, hcur, hreleased⟩ := h
  rw [hidPrepare_writes]
  cases e <;> exact ⟨hwf, hbus, hcur, hreleased⟩

/-- The first send of a command on a ready endpoint. -/
theorem exec_hid_start_ready (hchan : hidChannel i = some e) (hidle : s.phase = .idle)
    (hreports : hidSilent i s = false) (h : Ready e s) : exec i s =
      .next (afterSend i 1 (hidSent e (hidReport i e (hidPrepare i 1 s)) (hidPrepare i 1 s))) := by
  obtain ⟨-, -, hsends⟩ := exec_hid_start_outcome hchan hidle hreports
  have hu := h.prepare i 1
  exact hsends hu.link hu.writable hu.cur (hidReport_fits hu.config hchan _) (hidReport_ne_nil hchan)

/-- A later send of a command on a ready endpoint. -/
theorem exec_hid_yield_ready {stage : Nat} (hchan : hidChannel i = some e) (hyield : s.phase = .hidYield stage)
    (hlo : 1 ≤ stage) (hhi : stage < sendCount i) (h : Ready e s) : exec i s =
      .next (afterSend i (stage + 1) (hidSent e (hidReport i e (hidPrepare i (stage + 1) s))
        (hidPrepare i (stage + 1) s))) := by
  obtain ⟨-, -, hsends⟩ := exec_hid_yield_outcome hchan hyield hlo hhi
  have hu := h.prepare i (stage + 1)
  exact hsends hu.link hu.writable hu.cur (hidReport_fits hu.config hchan _) (hidReport_ne_nil hchan)

/-- The poll after a send takes the report, and the endpoint is ready again. -/
theorem poll_afterSend (h : Ready e s) (i : Instr) (stage : Nat) (report : List Byte) :
    envStep (.hostPoll e) (afterSend i stage (hidSent e report s)) = afterSend i stage (delivered e report s) ∧
    Ready e (afterSend i stage (delivered e report s)) := by
  obtain ⟨hwf, hbus, hcur, hreleased⟩ := h
  have hsent : ((afterSend i stage (hidSent e report s)).inEp e).released = report :: [] := by
    rw [MainLaws.inEp_afterSend, hidSent, inEp_setInEp]
    simp [hreleased]
  have hbus' : busUp (afterSend i stage (hidSent e report s)) = true := by
    unfold afterSend
    split <;> cases e <;> exact hbus
  rw [envStep_hostPoll hbus' hsent]
  unfold afterSend
  split <;> cases e <;> exact ⟨rfl, hwf, hbus, hcur, rfl⟩

end

/-! ### One key report (R181, R187) -/

/-- KB_SET_KEY1 `k`, KB_SEND_NOW and a host poll, from `s` over `t` and `u`: the host has the report with `k`. -/
structure KeyReported (k : Byte) (s t u : State) : Prop where
  sets : exec (.kbSetKey1 k) s = .next t
  sends : exec .kbSendNow t = .next u
  ready : Ready .kb (envStep (.hostPoll .kb) u)
  idle : u.phase = .idle
  cix : u.cix = s.cix + 2
  kb : (envStep (.hostPoll .kb) u).kb = s.kb.set 2 k
  endpoint : (envStep (.hostPoll .kb) u).kbEp = ⟨[], [], s.kbEp.hostLog ++ [(s.kb.set 2 k).toList]⟩

theorem exists_keyReported {s : State} (k : Byte) (hidle : s.phase = .idle) (hready : Ready .kb s) :
    ∃ t u, KeyReported k s t u := by
  obtain ⟨hwf, hbus, hcur, hreleased⟩ := hready
  let t : State := { s with kb := s.kb.set 2 k, res := 0, cix := s.cix + 1 }
  have hready : Ready .kb t := ⟨hwf, hbus, hcur, hreleased⟩
  obtain ⟨hpoll, hpolled⟩ := poll_afterSend hready .kbSendNow 1 (kbReport t)
  refine ⟨t, afterSend .kbSendNow 1 (hidSent .kb (kbReport t) t), ?_⟩
  exact {
    sets := kbSetter_of_idle hidle 2 k
    sends := exec_hid_start_ready rfl hidle rfl hready
    ready := hpoll ▸ hpolled
    idle := rfl
    cix := rfl
    kb := congrArg State.kb hpoll
    endpoint := by
      rw [hpoll]
      show (⟨s.kbEp.cur, [], _⟩ : InEndpoint) = _
      rw [show s.kbEp.cur = [] from hcur]
      rfl }

/-- Settles O44: two key reports, each taken by the host before the next. -/
theorem keyTapLaw : Obligations.KeyTapLaw := by
  intro s k hinv hidle hbus hreleased
  obtain ⟨s1, s2, hmake⟩ :=
    exists_keyReported k hidle (ready_of_blockInv hinv (e := .kb) nofun hbus hreleased)
  have hidle2 : (envStep (.hostPoll .kb) s2).phase = .idle := (AgentLaws.envStep_phase_idle_iff _ _).2 hmake.idle
  obtain ⟨s3, s4, hbreak⟩ := exists_keyReported 0 hidle2 hmake.ready
  refine ⟨s1, s2, s3, s4, hmake.sets, hmake.sends, hbreak.sets, hbreak.sends, ?_, hbreak.idle, ?_⟩
  · rw [hbreak.endpoint, hmake.endpoint, hmake.kb, Vector.set_set, List.append_assoc]
    rfl
  · rw [hbreak.cix, AgentLaws.envStep_cix, hmake.cix]

/-! ### Mouse reports (R193, R195) -/

/-- A mouse report sent and taken stands at the end of the log, and the endpoint is otherwise as it was. -/
theorem msEp_delivered {s : State} (hready : Ready .ms s) (i : Instr) (stage : Nat) (report : List Byte) :
    (afterSend i stage (delivered .ms report s)).msEp = { s.msEp with hostLog := s.msEp.hostLog ++ [report] } := by
  have hreleased : s.msEp.released = [] := hready.released
  refine (MainLaws.inEp_afterSend i stage (delivered .ms report s) .ms).trans ?_
  show (⟨s.msEp.cur, [], s.msEp.hostLog ++ [report]⟩ : InEndpoint) = ⟨s.msEp.cur, s.msEp.released, _⟩
  rw [hreleased]

/-- `p` is `v` once a mouse report has been sent and the host has taken it. -/
structure MouseTaken (report : List Byte) (v p : State) : Prop where
  ready : Ready .ms p
  endpoint : p.msEp = { v.msEp with hostLog := v.msEp.hostLog ++ [report] }
  buttons : p.msButtons = v.msButtons

theorem mouseTaken_of_poll {v : State} (hready : Ready .ms v) (i : Instr) (stage : Nat) (report : List Byte) :
    MouseTaken report v (envStep (.hostPoll .ms) (afterSend i stage (hidSent .ms report v))) := by
  obtain ⟨hpoll, hpolled⟩ := poll_afterSend hready i stage report
  rw [hpoll]
  refine ⟨hpolled, msEp_delivered hready i stage report, ?_⟩
  unfold afterSend
  split <;> rfl

theorem Ready.setButtons {s : State} (h : Ready .ms s) (b : Byte) : Ready .ms (setButtons b s) :=
  ⟨h.config, h.bus, h.cur, h.released⟩

/-- From no button held, MS_PRESS 1 reports it, and a second one finds it held. -/
theorem msPress_twice {s : State} (hidle : s.phase = .idle) (hready : Ready .ms s) (hnone : s.msButtons = 0) :
    ∃ s1 s2, exec (.msPress 1) s = .next s1 ∧ exec (.msPress 1) (envStep (.hostPoll .ms) s1) = .next s2 ∧
      s2.msEp = { s.msEp with hostLog := s.msEp.hostLog ++ [[1, 0, 0, 0, 0]] } ∧ s2.cix = s.cix + 2 := by
  have hreports : hidSilent (.msPress 1) s = false := by simp [hidSilent, hnone]
  have hfirst := exec_hid_start_ready (i := .msPress 1) rfl hidle hreports hready
  have hmask : hidPrepare (.msPress 1) 1 s = setButtons 1 s := by simp [hidPrepare, hnone]
  rw [hmask] at hfirst
  let u := afterSend (.msPress 1) 1 (hidSent .ms [1, 0, 0, 0, 0] (setButtons 1 s))
  let p := envStep (.hostPoll .ms) u
  have htaken : MouseTaken [1, 0, 0, 0, 0] (setButtons 1 s) p := mouseTaken_of_poll (hready.setButtons 1) ..
  have hidleP : p.phase = .idle := (AgentLaws.envStep_phase_idle_iff _ u).2 rfl
  have hsilent : hidSilent (.msPress 1) p = true := by
    simp only [hidSilent, htaken.buttons]
    exact (by decide : (1 ||| 1 == (1 : Byte)) = true)
  refine ⟨u, _, hfirst, exec_hid_start_silent (e := .ms) rfl hidleP hsilent, htaken.endpoint, ?_⟩
  exact congrArg (· + 1) (AgentLaws.envStep_cix (.hostPoll .ms) u)

/-- MS_CLICK 1 reports the press, yields, and reports the release. -/
theorem msClick_reports {s : State} (hidle : s.phase = .idle) (hready : Ready .ms s) :
    ∃ s1 s2, exec (.msClick 1) s = .next s1 ∧ exec (.msClick 1) (envStep (.hostPoll .ms) s1) = .next s2 ∧
      (envStep (.hostPoll .ms) s2).msEp =
        { s.msEp with hostLog := s.msEp.hostLog ++ [[1, 0, 0, 0, 0], [0, 0, 0, 0, 0]] } ∧
      s2.phase = .idle ∧ s2.cix = s.cix + 1 := by
  let u := afterSend (.msClick 1) 1 (hidSent .ms [1, 0, 0, 0, 0] (setButtons 1 s))
  let p := envStep (.hostPoll .ms) u
  have hpressed : MouseTaken [1, 0, 0, 0, 0] (setButtons 1 s) p := mouseTaken_of_poll (hready.setButtons 1) ..
  have hyield : p.phase = .hidYield 1 := envStep_phase_of_closed (.hostPoll .ms) (s := u) rfl
  let w := afterSend (.msClick 1) 2 (hidSent .ms [0, 0, 0, 0, 0] (setButtons 0 p))
  have hreleased : MouseTaken [0, 0, 0, 0, 0] (setButtons 0 p) (envStep (.hostPoll .ms) w) :=
    mouseTaken_of_poll (hpressed.ready.setButtons 0) ..
  refine ⟨u, w, exec_hid_start_ready rfl hidle rfl hready,
    exec_hid_yield_ready rfl hyield (Nat.le_refl 1) (by decide : 1 < 2) hpressed.ready, ?_, rfl, ?_⟩
  · have hboth : (envStep (.hostPoll .ms) w).msEp = { p.msEp with hostLog := p.msEp.hostLog ++ [[0, 0, 0, 0, 0]] } :=
      hreleased.endpoint
    rw [hboth, hpressed.endpoint, List.append_assoc]
    rfl
  · exact congrArg (· + 1) (AgentLaws.envStep_cix (.hostPoll .ms) u)

/-- Settles O45: `msPress_twice` and `msClick_reports`. -/
theorem mouseLaws : Obligations.MouseLaws := by
  intro s hinv hidle hbus hreleased
  have hready := ready_of_blockInv hinv (e := .ms) nofun hbus hreleased
  exact ⟨msPress_twice hidle hready, msClick_reports hidle hready⟩

end Sys2Proof.Machine.HostLaws
end
